-- ==== Sys2Proof/Word.lean ====
section
/-! DEFINITION. The word types of the codec: one name per port width of spec/00_scope.md (rules R5 to R8, R69, R70).
Every value is an unsigned binary number whose bit 0 is the least significant bit (rules R9, R15). -/

namespace Sys2Proof

/-- A one-bit port or field: `ok`, `dec_ok`, a parity bit (rules R12, R30). -/
abbrev Bit := BitVec 1

/-- The 32-bit operand of POPCNT and MSB and the wrapper's `a` and `y` (POP_W, MSB_W; rules R7, R8, R31). -/
abbrev Word := BitVec 32

/-- The 6-bit result of POPCNT and MSB, 0 to 32 (POP_RW, MSB_RW; rules R7, R8). -/
abbrev Count := BitVec 6

/-- The 16-bit data word, payload in bits 8 to 0 (DATA_W; rules R6, R60). -/
abbrev DataWord := BitVec 16

/-- The 9-bit payload, read as the 3 × 3 matrix (DATA_BITS; rules R5, R60). -/
abbrev Payload := BitVec 9

/-- The 8-bit code word, content in bits 6 to 0 (CODE_W; rules R6, R63). -/
abbrev CodeWord := BitVec 8

/-- The 7-bit syndrome (CODE_BITS; rules R5, R66). -/
abbrev Syndrome := BitVec 7

/-- A 3-bit row or column field of a code word or syndrome (rules R63, R66, R67). -/
abbrev Field3 := BitVec 3

/-- The wrapper's 42-bit request bundle, sel above b above a (REQ_W; rule R69). -/
abbrev Request := BitVec 42

/-- The wrapper's 33-bit response bundle, ok above y (RSP_W; rule R70). -/
abbrev Response := BitVec 33

end Sys2Proof
end

