-- ==== Sys2Proof/Config.lean ====
section
/-! DEFINITION. What is fixed for the machine but is no state (rule R18): the one open value of the spec.
The geometry (N = 3, 9 payload bits, 7 code bits: rule R5, decision D22) and the port widths (rules R6 to R8) are constants of
the types in Sys2Proof/Word.lean, not arguments. -/

namespace Sys2Proof.Config

/-- FREE VALUE. What `dec_corrected` shows when `dec_ok = 0` (rule R141, decision D9, U1): open, under no law.
The arguments are the received data word, the received code and the number of the request, so that one request shows one value
however often it is sampled (rule R44), and two failing requests with equal inputs are not forced to show equal values (rule R29).
DESIGN CHOICE, safe: see notes/assumptions/1.md. -/
opaque decFailData : DataWord → CodeWord → Nat → DataWord

end Sys2Proof.Config
end

