-- ==== Sys2Proof/Syntax.lean ====
section
/-! DEFINITION. The operations of the block, one constructor per row of spec/opcode_table.json (rules R2, R85). -/

namespace Sys2Proof

/-- One operation with the operand bits that reach its unit (rule R71).
Request bits that no unit sees are no part of an operation: decoding drops them (rule R82). -/
inductive Instr where
  /-- `POPCNT v`: how many bits of `v` are 1 (rule R90). -/
  | popcnt (v : Word)
  /-- `MSB v`: the 1-based position of the highest 1 bit of `v`, 0 for 0 (rule R100). -/
  | msb (v : Word)
  /-- `ENC d`: the code of the payload in `d` (rule R110). -/
  | enc (d : DataWord)
  /-- `DEC d, c`: check and repair the received data word `d` against the received code `c` (rule R125). -/
  | dec (d : DataWord) (c : CodeWord)
  deriving DecidableEq, Repr

end Sys2Proof
end

