-- ==== Sys2Proof/WellFormed.lean ====
section
/-! DEFINITION. Which operations and which request bundles are well formed.
Every operation is (rule R81: no illegal encoding, every operand value legal); what a check can refuse is a bundle that is
not in the assembler's form, in which the request fields that the written syntax leaves out hold zeros (rule R85). -/

namespace Sys2Proof

/-- Every operation is well formed, whatever its operands (rule R81); the operands' types carry their widths. -/
def Instr.wellFormed : Instr → Bool
  | .popcnt _ => true
  | .msb _ => true
  | .enc _ => true
  | .dec _ _ => true

/-- The request fields that the written syntax of the selected operation leaves out (rules R71, R85):
`b` for POPCNT and MSB, `b` and `a[31:16]` for ENC, `a[31:16]` for DEC. -/
def unwrittenFields (r : Request) : Request :=
  if r &&& 0x30000000000#42 = 0x20000000000#42 then 0x0FFFFFF0000#42
  else if r &&& 0x30000000000#42 = 0x30000000000#42 then 0x000FFFF0000#42
  else 0x0FF00000000#42

/-- The bundle is the one the assembler writes for its operation: every unwritten field is zero (rule R85).
A bundle that is not is legal too and means the same operation (rules R81, R82). -/
def canonicalRequest (r : Request) : Bool :=
  r &&& unwrittenFields r == 0#42

end Sys2Proof
end

