-- ==== Sys2Proof/Decode.lean ====
section
/-! DEFINITION. The request bundle's fields, the decoder, the encoder, and the reading of opcode-table words
(spec/30_encoding.md rules R69 to R73, R81, R82, R85). -/

namespace Sys2Proof

/-- `sel = req[41:40]` (rule R69). -/
def requestSel (r : Request) : BitVec 2 := r.extractLsb' 40 2

/-- `b = req[39:32]` (rule R69). -/
def requestB (r : Request) : CodeWord := r.extractLsb' 32 8

/-- `a = req[31:0]` (rule R69). -/
def requestA (r : Request) : Word := r.extractLsb' 0 32

/-- The bundle `{sel, b, a}` (rule R69). -/
def bundle (sel : BitVec 2) (b : CodeWord) (a : Word) : Request := sel ++ b ++ a

/-- The data word in the low half of the first operand, `a[15:0]` (rule R71). -/
def dataOperand (a : Word) : DataWord := a.extractLsb' 0 16

/-- The operation a request asks for, by `sel` alone (rule R72); bits that reach no unit are dropped (rules R71, R82).
Total: all four codes of `sel` name an operation (rule R81). -/
def decode (r : Request) : Instr :=
  if requestSel r = 0b00#2 then .popcnt (requestA r)
  else if requestSel r = 0b01#2 then .msb (requestA r)
  else if requestSel r = 0b10#2 then .enc (dataOperand (requestA r))
  else .dec (dataOperand (requestA r)) (requestB r)

/-- Why a number is no request. -/
inductive DecodeError where
  /-- The number has a 1 at bit 42 or above, where a request bundle has no bit (rule R69). -/
  | widerThanRequest
  deriving DecidableEq, Repr

/-- The operation named by a number, read as the bundle `req[41:0]`.
A number of 43 bits or more is no bundle and is rejected by name. -/
def decodeNumber (w : Nat) : Except DecodeError Instr :=
  if w < 2 ^ 42 then .ok (decode (BitVec.ofNat 42 w)) else .error .widerThanRequest

/-- The request the assembler writes for an operation: unwritten fields are zeros (rules R71, R72, R85). -/
def encode : Instr → Request
  | .popcnt v => bundle 0b00#2 0x00#8 v
  | .msb v => bundle 0b01#2 0x00#8 v
  | .enc d => bundle 0b10#2 0x00#8 (d.setWidth 32)
  | .dec d c => bundle 0b11#2 c (d.setWidth 32)

/-- The number that the low `nbits` bits of an opcode-table word make; every bit above them is 0.
The table's bit 0 is `req[0]` (rules R9, R72). -/
def tableWord (nbits w : Nat) : Nat := w % 2 ^ nbits

/-- What the decoder reads from an opcode-table word: the bundle is one number and has no byte order (rule R42).
DESIGN CHOICE, safe: see notes/assumptions/5.md. -/
def decodeTableWord (nbits w : Nat) : Option Instr :=
  match decodeNumber (tableWord nbits w) with
  | .ok i => some i
  | .error _ => none

end Sys2Proof
end

