-- ==== Sys2Proof/Machine/State.lean ====
section
/-! DEFINITION. The state a step reads and writes: the values on the ports (spec/10_state.md rules R25 to R31), plain data.
The block itself stores nothing (rules R20 to R24, R29): a step reads the request on the input ports and writes the response
(rule R17), and no operation reads anything else here. -/

namespace Sys2Proof.Machine

/-- The values on the ports of the wrapper and of the four units, and the model's own count of requests.
A unit's ports show the last request that was routed to that unit (DEDUCED from rule R32: notes/assumptions/2.md). -/
structure State where
  /-- Wrapper input `sel[1:0]`, driven by the host (rule R31). -/
  sel : BitVec 2
  /-- Wrapper input `b[7:0]`, driven by the host (rule R31). -/
  b : CodeWord
  /-- Wrapper input `a[31:0]`, driven by the host (rule R31). -/
  a : Word
  /-- Wrapper output `ok` (rules R22, R31). -/
  ok : Bit
  /-- Wrapper output `y[31:0]` (rule R31). -/
  y : Word
  /-- `popcount_unit` input `pc_in[31:0]` (rule R25). -/
  pcIn : Word
  /-- `popcount_unit` output `pc_out[5:0]` (rule R25). -/
  pcOut : Count
  /-- `msb_priority_encoder` input `msb_in[31:0]` (rule R26). -/
  msbIn : Word
  /-- `msb_priority_encoder` output `msb_out[5:0]` (rule R26). -/
  msbOut : Count
  /-- `hamming_encoder` (unit) input `enc_data[15:0]` (rule R27). -/
  encData : DataWord
  /-- `hamming_encoder` (unit) output `enc_code[7:0]` (rule R27). -/
  encCode : CodeWord
  /-- `hamming_decoder_corrector` input `dec_data[15:0]` (rule R30). -/
  decData : DataWord
  /-- `hamming_decoder_corrector` input `dec_code[7:0]` (rule R30). -/
  decCode : CodeWord
  /-- `hamming_decoder_corrector` output `dec_ok` (rule R30). -/
  decOk : Bit
  /-- `hamming_decoder_corrector` output `dec_corrected[15:0]`, open while `dec_ok = 0` (rules R30, R141). -/
  decCorrected : DataWord
  /-- The model's own, not the hardware's: how many requests the host has presented, which numbers the free values
  (notes/assumptions/1.md). -/
  requestCount : Nat
  deriving DecidableEq, Repr

/-- Why the machine would stop with a fault. There is no reason: no operation raises an exception, for any input (rule R160),
and no behaviour of this hardware is to be treated as a fault (spec/93_implementation_defined.md, end of part 1). -/
inductive Fault where
  deriving DecidableEq, Repr

/-- Why the machine would refuse an instruction. -/
inductive Refusal where
  /-- An instruction that has no meaning in the model yet. Nobody raises it: all four operations have theirs.
  Safe: a step that stops proves nothing about the hardware. -/
  | notModelled (mnemonic : String)
  deriving DecidableEq, Repr

/-- The ports with every input driven to 0, so every output shows what its rule gives for zeros (rules R33, R185, R187).
The zeros on the input ports are a DESIGN CHOICE, the spec giving no reset value: notes/assumptions/3.md, unsafe. -/
def State.reset : State where
  sel := 0#2
  b := 0#8
  a := 0#32
  ok := 1#1
  y := 0#32
  pcIn := 0#32
  pcOut := 0#6
  msbIn := 0#32
  msbOut := 0#6
  encData := 0#16
  encCode := 0#8
  decData := 0#16
  decCode := 0#8
  decOk := 1#1
  decCorrected := 0#16
  requestCount := 0

end Sys2Proof.Machine
end

