-- ==== Sys2Proof/Machine/Ops.lean ====
section
/-! DEFINITION. The named operations over the ports: every read and write of a port goes through these.
There is no register file, no memory and no trap: nothing is saved on an exception because no exception exists
(rules R20, R40, R160, R169), so taking an exception and returning from one have no operation here. -/

namespace Sys2Proof.Machine

/-- `v[i]`, bit `i` of `v` (rule R10). -/
def bit {w : Nat} (v : BitVec w) (i : Nat) : Bit := v.extractLsb' i 1

/-- `zext_32(v)`: a unit result placed in `y`, or a narrow value given to a 32-bit primitive (rules R10, R78, R79). -/
def zext32 {w : Nat} (v : BitVec w) : Word := v.setWidth 32

/-- The request on the wrapper's input ports, `{sel, b, a}` (rule R69). -/
def requestOf (s : State) : Request := bundle s.sel s.b s.a

/-- The response on the wrapper's output ports, `{ok, y}` (rule R70). -/
def responseOf (s : State) : Response := s.ok ++ s.y

/-- The host presents one request: all input ports of the wrapper change as one consistent set (rules R17, R44, R189).
The model counts the request, so that a failing DEC draws one free value per request (notes/assumptions/1.md). -/
def presentRequest (r : Request) (s : State) : State :=
  { s with sel := requestSel r, b := requestB r, a := requestA r, requestCount := s.requestCount + 1 }

/-- The wrapper answers on `ok` and `y` (rule R31). -/
def respond (ok : Bit) (y : Word) (s : State) : State :=
  { s with ok := ok, y := y }

/-- `popcount_unit` sees `v` and answers `n` (rule R25). -/
def drivePopcount (v : Word) (n : Count) (s : State) : State :=
  { s with pcIn := v, pcOut := n }

/-- `msb_priority_encoder` sees `v` and answers `n` (rule R26). -/
def driveMsb (v : Word) (n : Count) (s : State) : State :=
  { s with msbIn := v, msbOut := n }

/-- `hamming_encoder` (unit) sees `d` and answers `c` (rule R27). -/
def driveEncoder (d : DataWord) (c : CodeWord) (s : State) : State :=
  { s with encData := d, encCode := c }

/-- `hamming_decoder_corrector` sees `d` and `c` and answers `ok` and `v` (rule R30). -/
def driveDecoder (d : DataWord) (c : CodeWord) (ok : Bit) (v : DataWord) (s : State) : State :=
  { s with decData := d, decCode := c, decOk := ok, decCorrected := v }

/-- The free value a failing DEC shows for the request now held (rule R141): it stays while the request is held (rule R44). -/
def failData (d : DataWord) (c : CodeWord) (s : State) : DataWord :=
  Config.decFailData d c s.requestCount

end Sys2Proof.Machine
end

