-- ==== Sys2Proof/Machine/Operands.lean ====
section
/-! DEFINITION. How operands are taken apart: the matrix cells of a payload and the fields of a code word or syndrome
(spec/30_encoding.md rules R60 to R67, R76, R77; spec/00_scope.md rule R13). -/

namespace Sys2Proof.Machine

/-- The bit index of matrix cell `M[row][col]`, for rows and columns 0 to 2: the ONE definition that the encoder's extraction
and the decoder's flip share (rules R13, R61, R190). -/
def cell (row col : Nat) : Nat :=
  (2 - row) * 3 + (2 - col)

/-- `d[8:0]`, the payload of a data word (rule R76). -/
def payload (d : DataWord) : Payload := d.extractLsb' 0 9

/-- `M[row][col]` (rule R60). -/
def matrixBit (p : Payload) (row col : Nat) : Bit := bit p (cell row col)

/-- The column field, bits 2 to 0 of a code word or syndrome (rules R63, R66, R67). -/
def columnField {w : Nat} (c : BitVec w) : Field3 := c.extractLsb' 0 3

/-- The row field, bits 5 to 3 of a code word or syndrome (rules R63, R66, R67). -/
def rowField {w : Nat} (c : BitVec w) : Field3 := c.extractLsb' 3 3

/-- The overall-parity bit, bit 6 of a code word (rules R63, R67). -/
def overallBit (c : CodeWord) : Bit := bit c 6

/-- The restriction of an 8-bit code difference to its low 7 bits (rules R77, R126). -/
def lowSeven (c : CodeWord) : Syndrome := c.extractLsb' 0 7

/-- The mask with the one payload bit of cell `M[row][col]` (rule R137). -/
def cellMask (row col : Nat) : DataWord := 1#16 <<< cell row col

end Sys2Proof.Machine
end

