-- ==== Sys2Proof/Machine/Primitives.lean ====
section
/-! DEFINITION. The two leaf functions, population count and highest set bit (spec/40_popcount.md rule R90,
spec/41_msb.md rule R100), and their use on 3-bit fields (rule R78). -/

namespace Sys2Proof.Machine

/-- The sum of the `n` lowest bits of `v`, each a one-bit number (rule R90). -/
def countOnes {w : Nat} (v : BitVec w) : Nat → Nat
  | 0 => 0
  | n + 1 => countOnes v n + (bit v n).toNat

/-- `popcount(v)`: the number of 1 bits of a 32-bit value, 0 to 32 (rule R90). -/
def popcount (v : Word) : Count := BitVec.ofNat 6 (countOnes v 32)

/-- The priority scan downwards from bit `n - 1`: one more than the first index whose bit is 1, 0 if none (rule R100). -/
def highestOne {w : Nat} (v : BitVec w) : Nat → Nat
  | 0 => 0
  | n + 1 => if bit v n = 1#1 then n + 1 else highestOne v n

/-- `msb(v)`: the 1-based position of the highest 1 bit, 0 for 0 (rules R100, R101). -/
def msb (v : Word) : Count := BitVec.ofNat 6 (highestOne v 32)

/-- `popcount` of a 3-bit field, zero-extended to the primitive's width first (rules R78, R94). -/
def fieldCount (x : Field3) : Nat := (popcount (zext32 x)).toNat

/-- `msb` of a 3-bit field, zero-extended to the primitive's width first (rules R78, R102). -/
def fieldMsb (x : Field3) : Nat := (msb (zext32 x)).toNat

end Sys2Proof.Machine
end

