-- ==== Sys2Proof/Machine/Flags.lean ====
section
/-! DEFINITION. The parity computations and the two checks of a received code. The block stores no flag (rule R22). -/

namespace Sys2Proof.Machine

/-- `parity(b0, b1, b2)`: the XOR of three bits (rule R12). -/
def parity3 (b0 b1 b2 : Bit) : Bit := b0 ^^^ b1 ^^^ b2

/-- The parity of matrix row `row` (rules R62, R111). -/
def rowParity (p : Payload) (row : Nat) : Bit :=
  parity3 (matrixBit p row 0) (matrixBit p row 1) (matrixBit p row 2)

/-- The parity of matrix column `col` (rules R62, R112). -/
def columnParity (p : Payload) (col : Nat) : Bit :=
  parity3 (matrixBit p 0 col) (matrixBit p 1 col) (matrixBit p 2 col)

/-- `popcount(x) mod 2` of a 3-bit field (rules R12, R129). -/
def fieldParity (x : Field3) : Nat := fieldCount x % 2

/-- `self_consistent`: the received code's check of itself, independent of the data (rule R129). -/
def selfConsistent (c : CodeWord) : Bool :=
  fieldParity (columnField c) == fieldParity (rowField c)
    && (overallBit c).toNat == fieldParity (rowField c)

/-- The check of decoder arm 3: the overall-parity bit against the received column field (rule R134). -/
def columnAgreesWithOverall (c : CodeWord) : Bool :=
  (overallBit c).toNat == fieldParity (columnField c)

end Sys2Proof.Machine
end

