-- ==== Sys2Proof/Machine/Encoder.lean ====
section
/-! DEFINITION. The ENC operation, `hamming_encoder` the unit (spec/42_encoder.md). -/

namespace Sys2Proof.Machine

/-- `enc(d)`, the 8-bit code of the payload in `d`: bit 7 zero, then the overall parity, the row field and the column field
(rules R110 to R113). -/
def enc (d : DataWord) : CodeWord :=
  let p := payload d
  let r0 := rowParity p 2
  let r1 := rowParity p 1
  let r2 := rowParity p 0
  let c0 := columnParity p 2
  let c1 := columnParity p 1
  let c2 := columnParity p 0
  let q := parity3 r0 r1 r2
  0#1 ++ q ++ r2 ++ r1 ++ r0 ++ c2 ++ c1 ++ c0

/-- `ENC d`: the code on `enc_code`, zero-extended in `y`, with `ok = 1` (rules R71, R110). -/
def execEnc (d : DataWord) (s : State) : Host.Outcome State Fault Refusal :=
  .next (respond 1#1 (zext32 (enc d)) (driveEncoder d (enc d) s))

end Sys2Proof.Machine
end

