-- ==== Sys2Proof/Machine/Decoder.lean ====
section
/-! DEFINITION. The DEC operation, `hamming_decoder_corrector` (spec/43_decoder.md). -/

namespace Sys2Proof.Machine

/-- The decoder's internal verdicts, one per arm and branch of its classification; on no port (rules R130, R166). -/
inductive DecClass where
  /-- Arm 1 (rule R132). -/
  | noError
  /-- Arm 2, success branch; kept because the source states it, reached by no input (rules R133, R147). -/
  | codeColOk
  /-- Arm 3, success branch (rule R134). -/
  | codeRowOk
  /-- Arm 4 (rules R135 to R137). -/
  | corrected
  /-- Arm 2 and arm 3, failure branches, and arm 5 (rules R133, R134, R138). -/
  | uncorrectable
  deriving DecidableEq, Repr

/-- Step 1: the recomputed code against the received one, in the low 7 bits (rules R118, R126). -/
def syndrome (d : DataWord) (c : CodeWord) : Syndrome := lowSeven (enc d ^^^ c)

/-- `col_syn` (rule R127). -/
def colSyn (d : DataWord) (c : CodeWord) : Field3 := columnField (syndrome d c)

/-- `row_syn` (rule R127). -/
def rowSyn (d : DataWord) (c : CodeWord) : Field3 := rowField (syndrome d c)

/-- `total`: the mismatches of both fields; syndrome bit 6 is not counted (rule R127). -/
def total (d : DataWord) (c : CodeWord) : Nat :=
  fieldCount (colSyn d c) + fieldCount (rowSyn d c)

/-- The classification, its arms tested in the source's order (rules R132 to R139). -/
def decClass (d : DataWord) (c : CodeWord) : DecClass :=
  if total d c = 0 then .noError
  else if total d c = 1 ∧ colSyn d c ≠ 0#3 then
    if selfConsistent c then .codeColOk else .uncorrectable
  else if total d c = 1 ∧ colSyn d c = 0#3 then
    if columnAgreesWithOverall c then .codeRowOk else .uncorrectable
  else if total d c = 2 ∧ fieldCount (colSyn d c) = 1 ∧ fieldCount (rowSyn d c) = 1 ∧ selfConsistent c then
    .corrected
  else .uncorrectable

/-- Arm 4's location: `row = 2 − (msb(row_syn) − 1)` (rule R136). -/
def faultyRow (d : DataWord) (c : CodeWord) : Nat := 2 - (fieldMsb (rowSyn d c) - 1)

/-- Arm 4's location: `col = 2 − (msb(col_syn) − 1)` (rule R136). -/
def faultyColumn (d : DataWord) (c : CodeWord) : Nat := 2 - (fieldMsb (colSyn d c) - 1)

/-- Arm 4's repair: the whole word with one payload bit flipped (rule R137). -/
def repaired (d : DataWord) (c : CodeWord) : DataWord :=
  d ^^^ cellMask (faultyRow d c) (faultyColumn d c)

/-- The discriminated result: the data word on success, nothing on failure (rules R140 to R142). -/
def correct (d : DataWord) (c : CodeWord) : Option DataWord :=
  match decClass d c with
  | .noError => some d
  | .codeColOk => some d
  | .codeRowOk => some d
  | .corrected => some (repaired d c)
  | .uncorrectable => none

/-- `DEC d, c`: on success the data word and `ok = 1`, on failure `ok = 0` and the free value of the request
(rules R71, R125, R141). -/
def execDec (d : DataWord) (c : CodeWord) (s : State) : Host.Outcome State Fault Refusal :=
  match correct d c with
  | some v => .next (respond 1#1 (zext32 v) (driveDecoder d c 1#1 v s))
  | none =>
    .next (respond 0#1 (zext32 (failData d c s)) (driveDecoder d c 0#1 (failData d c s) s))

end Sys2Proof.Machine
end

