-- ==== Sys2Proof/Machine/Msb.lean ====
section
/-! DEFINITION. The MSB operation, `msb_priority_encoder` (spec/41_msb.md). -/

namespace Sys2Proof.Machine

/-- `MSB v`: the 1-based position on `msb_out`, zero-extended in `y`, with `ok = 1` (rules R71, R100). -/
def execMsb (v : Word) (s : State) : Host.Outcome State Fault Refusal :=
  .next (respond 1#1 (zext32 (msb v)) (driveMsb v (msb v) s))

end Sys2Proof.Machine
end

