-- ==== Sys2Proof/Machine/Popcount.lean ====
section
/-! DEFINITION. The POPCNT operation, `popcount_unit` (spec/40_popcount.md). -/

namespace Sys2Proof.Machine

/-- `POPCNT v`: the count on `pc_out`, zero-extended in `y`, with `ok = 1` (rules R71, R90). -/
def execPopcnt (v : Word) (s : State) : Host.Outcome State Fault Refusal :=
  .next (respond 1#1 (zext32 (popcount v)) (drivePopcount v (popcount v) s))

/-- The reference algorithm the source names, not normative (rule R92): pairwise sums, then nibbles, then bytes, then a
multiply-and-shift horizontal sum. The constants are the spec's general knowledge (G1). -/
def swarPopcount (v : Word) : Count :=
  let pairs := v - ((v >>> 1) &&& 0x55555555#32)
  let nibbles := (pairs &&& 0x33333333#32) + ((pairs >>> 2) &&& 0x33333333#32)
  let bytes := (nibbles + (nibbles >>> 4)) &&& 0x0F0F0F0F#32
  ((bytes * 0x01010101#32) >>> 24).setWidth 6

end Sys2Proof.Machine
end

