-- ==== Sys2Proof/Machine/Dispatch.lean ====
section
/-! DEFINITION. One arm per operation, each one call of its meaning (rules R72, R73). -/

namespace Sys2Proof.Machine

def exec (i : Instr) (s : State) : Host.Outcome State Fault Refusal :=
  match i with
  | .popcnt v => Sys2Proof.Machine.execPopcnt v s
  | .msb v => Sys2Proof.Machine.execMsb v s
  | .enc d => Sys2Proof.Machine.execEnc d s
  | .dec d c => Sys2Proof.Machine.execDec d c s

end Sys2Proof.Machine
end

