-- ==== Sys2Proof/Machine/Step.lean ====
section
/-! DEFINITION. One step is one request (rule R17): the operation on the input ports runs and its response appears. -/

namespace Sys2Proof.Machine

/-- The block answers the request its input ports hold (rules R17, R49, R186). -/
def step (s : State) : Host.Outcome State Fault Refusal :=
  exec (decode (requestOf s)) s

/-- The host drives an opcode-table word onto the wrapper's input ports, where `step` reads its request.
The block selects nothing itself and has no program: notes/assumptions/4.md. -/
def State.withFetchWord (s : State) (nbits w : Nat) : State :=
  presentRequest (BitVec.ofNat 42 (tableWord nbits w)) s

end Sys2Proof.Machine
end

