-- ==== Sys2Proof/Machine/Run.lean ====
section
/-! DEFINITION. A run: a finite sequence of requests that the host applies to one block, and its list of responses
(rule R194). The requests are an argument, not state (rule R18). -/

namespace Sys2Proof.Machine

/-- The host presents one request and the block answers it (rules R17, R47). -/
def answer (r : Request) (s : State) : Host.Outcome State Fault Refusal :=
  step (presentRequest r s)

/-- The host applies the requests in order and samples each response (rule R194): the ports after the last one and the
responses, oldest first. -/
def runRequests : List Request → State → Host.Outcome (State × List Response) Fault Refusal
  | [], s => .next (s, [])
  | r :: rs, s =>
    match answer r s with
    | .fault f => .fault f
    | .refused e => .refused e
    | .next t =>
      match runRequests rs t with
      | .fault f => .fault f
      | .refused e => .refused e
      | .next (u, out) => .next (u, responseOf t :: out)

end Sys2Proof.Machine
end

