-- ==== Sys2Proof/Safety.lean ====
section
/-! DEFINITION. The terms in which statements speak: what a right response is, when the ports agree with their rules,
what of a response may be relied on, and flips of the protected bits of a stored pair. -/

namespace Sys2Proof.Safety

open Sys2Proof.Machine

/-- `(ok, y)` is the selected unit's own result (rules R71, R73): on a failing DEC `ok = 0`, the high half of `y` is 0
and the low half is open (rule R141). -/
def Answers (i : Instr) (ok : Bit) (y : Word) : Prop :=
  match i with
  | .popcnt v => ok = 1#1 ∧ y = zext32 (popcount v)
  | .msb v => ok = 1#1 ∧ y = zext32 (msb v)
  | .enc d => ok = 1#1 ∧ y = zext32 (enc d)
  | .dec d c =>
    match correct d c with
    | some v => ok = 1#1 ∧ y = zext32 v
    | none => ok = 0#1 ∧ y.extractLsb' 16 16 = 0#16

/-- The decoder's output ports agree with its input ports; `dec_corrected` is open while `dec_ok = 0` (rules R33, R141). -/
def DecoderConsistent (s : State) : Prop :=
  match correct s.decData s.decCode with
  | some v => s.decOk = 1#1 ∧ s.decCorrected = v
  | none => s.decOk = 0#1

/-- Every unit's output ports show the value its operation's rule gives for its present inputs (rule R33).
Presenting a request touches none of them, so this holds between a presented request and its answer too. -/
def UnitsConsistent (s : State) : Prop :=
  s.pcOut = popcount s.pcIn ∧ s.msbOut = msb s.msbIn ∧ s.encCode = enc s.encData ∧ DecoderConsistent s

/-- Every output port, the wrapper's too, shows the value its operation's rule gives for the present inputs (rule R33). -/
def PortsConsistent (s : State) : Prop :=
  UnitsConsistent s ∧ Answers (decode (requestOf s)) s.ok s.y

/-- The `ok` of a response bundle, `rsp[32]` (rule R70). -/
def rspOk (rsp : Response) : Bit := rsp.extractLsb' 32 1

/-- The `y` of a response bundle, `rsp[31:0]` (rule R70). -/
def rspY (rsp : Response) : Word := rsp.extractLsb' 0 32

/-- What a host may rely on in a response: all of it when `ok = 1`, all but the open low half of `y` when `ok = 0`
(rules R141, R165, R191). -/
def visible (rsp : Response) : Response :=
  if rspOk rsp = 1#1 then rsp else rsp &&& 0x0FFFF0000#33

/-- The stored pair with one of its 16 protected bits flipped: positions 0 to 8 are payload bits, 9 to 15 are code bits
0 to 6 (rules R150, R151). -/
def flipProtected (p : Nat) (pair : DataWord × CodeWord) : DataWord × CodeWord :=
  if p < 9 then (pair.1 ^^^ (1#16 <<< p), pair.2) else (pair.1, pair.2 ^^^ (1#8 <<< (p - 9)))

/-- The state after DEC has succeeded with data `v` (rules R140, R71): the decoder's and the wrapper's ports, nothing else
(rule R32; the model's own count of requests does not move either: notes/assumptions/1.md). -/
def decSucceeded (d : DataWord) (c : CodeWord) (v : DataWord) (s : State) : State :=
  { s with decData := d, decCode := c, decOk := 1#1, decCorrected := v, ok := 1#1, y := v.setWidth 32 }

/-- The state after DEC has failed and the free value `v` stands on the open output (rules R141, R162): the decoder's and the
wrapper's ports, nothing else (rule R32; the model's own count of requests does not move either: notes/assumptions/1.md). -/
def decFailed (d : DataWord) (c : CodeWord) (v : DataWord) (s : State) : State :=
  { s with
    decData := d, decCode := c, decOk := 0#1, decCorrected := v, ok := 0#1, y := v.setWidth 32 }

end Sys2Proof.Safety
end

