-- ==== Sys2Proof/Certificates/Slice0/Obligations.lean ====
section
/-! DEFINITION. The statements for the provers. Each docstring names the rules of spec/ it speaks of.
A statement about a failing DEC holds for every value of the free value; none rests on it.
Where a next state is written out whole, the equation also says that the model's own count of requests does not move; that count is
the model's choice, log entry 1 (notes/assumptions/1.md), and no rule of the spec. -/

open Sys2Proof Sys2Proof.Machine Sys2Proof.Safety

/-! ### The request bundle -/

/-- Decoding the request that the assembler writes for an operation gives that operation back (rules R69, R71, R85). -/
def Obligations.DecodeEncodeInverse : Prop :=
  ∀ i : Instr, i.wellFormed = true → decode (encode i) = i

/-- A bundle in the assembler's form is what the encoder writes for the operation it decodes to (rules R69, R71, R85). -/
def Obligations.EncodeDecodeCanonical : Prop :=
  ∀ r : Request, canonicalRequest r = true → encode (decode r) = r

/-- Rule R72: `sel = req[41:40]` alone selects the operation, by the table's match and mask values. -/
def Obligations.OpcodeMapSelects : Prop :=
  ∀ r : Request,
    ((r.extractLsb' 40 2 = 0b00#2 ↔ r &&& 0x30000000000#42 = 0x00000000000#42)
      ∧ (r &&& 0x30000000000#42 = 0x00000000000#42 ↔ ∃ v, decode r = .popcnt v))
    ∧ ((r.extractLsb' 40 2 = 0b01#2 ↔ r &&& 0x30000000000#42 = 0x10000000000#42)
      ∧ (r &&& 0x30000000000#42 = 0x10000000000#42 ↔ ∃ v, decode r = .msb v))
    ∧ ((r.extractLsb' 40 2 = 0b10#2 ↔ r &&& 0x30000000000#42 = 0x20000000000#42)
      ∧ (r &&& 0x30000000000#42 = 0x20000000000#42 ↔ ∃ d, decode r = .enc d))
    ∧ ((r.extractLsb' 40 2 = 0b11#2 ↔ r &&& 0x30000000000#42 = 0x30000000000#42)
      ∧ (r &&& 0x30000000000#42 = 0x30000000000#42 ↔ ∃ d c, decode r = .dec d c))

/-- Words written out from the spec's encodings decode to the operations they stand for (spec/95_test_vectors.md). -/
def Obligations.DecodesWrittenWords : Prop :=
  decode 0x000E0000000#42 = .popcnt 0xE0000000#32 ∧ decode 0x10020000000#42 = .msb 0x20000000#32
    ∧ decode 0x20000000101#42 = .enc 0x0101#16 ∧ decode 0x32D00000141#42 = .dec 0x0141#16 0x2D#8
    ∧ decode 0x2FFFFFF0101#42 = .enc 0x0101#16

/-- Rules R71 and R73: which request bits reach which unit, and that the response is that unit's own result, zero-extended in `y`,
with its `ok`. "Of which only `a[8:0]`" and "of which only `b[6:0]` affect the result" are the two last clauses. -/
def Obligations.WrapperRoutesToUnits : Prop :=
  (∀ (a : Word) (b : CodeWord) (s : State), ∃ t, step (presentRequest (0b00#2 ++ b ++ a) s) = .next t
      ∧ t.pcIn = a ∧ t.pcOut = popcount a ∧ t.y = t.pcOut.setWidth 32 ∧ t.y.toNat ≤ 32 ∧ t.ok = 1#1)
    ∧ (∀ (a : Word) (b : CodeWord) (s : State), ∃ t, step (presentRequest (0b01#2 ++ b ++ a) s) = .next t
      ∧ t.msbIn = a ∧ t.msbOut = msb a ∧ t.y = t.msbOut.setWidth 32 ∧ t.y.toNat ≤ 32 ∧ t.ok = 1#1)
    ∧ (∀ (a : Word) (b : CodeWord) (s : State), ∃ t, step (presentRequest (0b10#2 ++ b ++ a) s) = .next t
      ∧ t.encData = a.extractLsb' 0 16 ∧ t.encCode = enc (a.extractLsb' 0 16) ∧ t.y = t.encCode.setWidth 32
      ∧ t.y.toNat ≤ 0x7F ∧ t.ok = 1#1)
    ∧ (∀ (a : Word) (b : CodeWord) (s : State), ∃ t, step (presentRequest (0b11#2 ++ b ++ a) s) = .next t
      ∧ t.decData = a.extractLsb' 0 16 ∧ t.decCode = b
      ∧ (correct (a.extractLsb' 0 16) b = if t.decOk = 1#1 then some t.decCorrected else none)
      ∧ t.y = t.decCorrected.setWidth 32 ∧ t.ok = t.decOk)
    ∧ (∀ d d' : DataWord, d.extractLsb' 0 9 = d'.extractLsb' 0 9 → enc d = enc d')
    ∧ (∀ (d : DataWord) (c c' : CodeWord), c.extractLsb' 0 7 = c'.extractLsb' 0 7 → correct d c = correct d c')

/-- Rule R82, from a state with any content: `b` is ignored by POPCNT and MSB, `b` and `a[31:9]` by ENC; DEC ignores
`a[31:16]` and `b[7]`, and `a[15:9]` leave `ok` alone and pass through when `ok = 1`.
The open value of a failing DEC is excepted, `y[15:0]` when `ok = 0` (rule R141): of it nothing is said. -/
def Obligations.IgnoredRequestBits : Prop :=
  (∀ (sel : BitVec 2) (a : Word) (b b' : CodeWord) (s : State), sel = 0b00#2 ∨ sel = 0b01#2 →
      ∃ t t', step (presentRequest (sel ++ b ++ a) s) = .next t ∧ step (presentRequest (sel ++ b' ++ a) s) = .next t'
        ∧ responseOf t = responseOf t')
    ∧ (∀ (a a' : Word) (b b' : CodeWord) (s : State), a.extractLsb' 0 9 = a'.extractLsb' 0 9 →
      ∃ t t', step (presentRequest (0b10#2 ++ b ++ a) s) = .next t
        ∧ step (presentRequest (0b10#2 ++ b' ++ a') s) = .next t' ∧ responseOf t = responseOf t')
    ∧ (∀ (a a' : Word) (b b' : CodeWord) (s : State), a.extractLsb' 0 9 = a'.extractLsb' 0 9 →
      b.extractLsb' 0 7 = b'.extractLsb' 0 7 →
      ∃ t t', step (presentRequest (0b11#2 ++ b ++ a) s) = .next t
        ∧ step (presentRequest (0b11#2 ++ b' ++ a') s) = .next t'
        ∧ t.ok = t'.ok
        ∧ t.y.extractLsb' 16 16 = t'.y.extractLsb' 16 16
        ∧ (t.ok = 1#1 → t.y.extractLsb' 0 9 = t'.y.extractLsb' 0 9
          ∧ t.y.extractLsb' 9 7 = a.extractLsb' 9 7 ∧ t'.y.extractLsb' 9 7 = a'.extractLsb' 9 7))

/-! ### Steps and ports -/

/-- A step is the decoded operation of the request on the ports, with nothing around it, and presenting a request puts
exactly that request there (rules R17, R49). The third clause is the model's choice: that `withFetchWord` stands for the host
presenting a request is log entry 4, and that a table word is one number without a byte order is log entry 5. -/
def Obligations.StepRunsDecoded : Prop :=
  (∀ (s : State) (i : Instr), decode (requestOf s) = i → step s = exec i s)
    ∧ (∀ (s : State) (r : Request), requestOf (presentRequest r s) = r)
    ∧ (∀ (s : State) (w : Nat), w < 2 ^ 42 → requestOf (s.withFetchWord 48 w) = BitVec.ofNat 42 w)

/-- Every operation completes in every state with every operand, and so does every request (rules R81, R160). -/
def Obligations.EveryRequestAnswered : Prop :=
  (∀ (i : Instr) (s : State), ∃ t, exec i s = .next t)
    ∧ (∀ (r : Request) (s : State), ∃ t, step (presentRequest r s) = .next t ∧ requestOf t = r)

/-- Whatever state came before, two blocks that hold the same request give the same response, but for the open value
(rules R16, R29, R46). -/
def Obligations.ResponseIgnoresHistory : Prop :=
  ∀ s s' t t' : State, requestOf s = requestOf s' → step s = .next t → step s' = .next t' →
    visible (responseOf t) = visible (responseOf t')

/-- While the host holds the inputs, answering again changes nothing at all, the open value of a failing DEC included (rules R44,
R162). That a further step stands for sampling the held request again is log entry 4, and that the open value belongs to
the request is log entry 1. -/
def Obligations.HeldInputsIdempotent : Prop :=
  ∀ s t : State, step s = .next t → step t = .next t

/-- Frame: each operation writes its own unit's ports and the wrapper's response, and no other port; the request ports are the
host's. Rules R32 and R175 say it of a DEC and of the private copies inside DEC and ENC; that it holds of every pair of units is
the model's choice, DEDUCED: log entry 2. That the model's own count of requests does not move is log entry 1. -/
def Obligations.ExecFrame : Prop :=
  ∀ (i : Instr) (s t : State), exec i s = .next t →
    (t.sel = s.sel ∧ t.b = s.b ∧ t.a = s.a)
    ∧ ((∀ v, i ≠ .popcnt v) → t.pcIn = s.pcIn ∧ t.pcOut = s.pcOut)
    ∧ ((∀ v, i ≠ .msb v) → t.msbIn = s.msbIn ∧ t.msbOut = s.msbOut)
    ∧ ((∀ d, i ≠ .enc d) → t.encData = s.encData ∧ t.encCode = s.encCode)
    ∧ ((∀ d c, i ≠ .dec d c) → t.decData = s.decData ∧ t.decCode = s.decCode ∧ t.decOk = s.decOk
      ∧ t.decCorrected = s.decCorrected)
    ∧ t.requestCount = s.requestCount

/-- If every unit's output ports show the value its rule gives for its inputs, then after any step, on the held request and on any
newly presented one, every output port of the units and of the wrapper does (rule R33). `PortsConsistent` contains the premise,
so the statement chains over a run of different requests. -/
def Obligations.StepKeepsPortsConsistent : Prop :=
  ∀ s t : State, UnitsConsistent s →
    (step s = .next t → PortsConsistent t) ∧ (∀ r : Request, step (presentRequest r s) = .next t → PortsConsistent t)

/-- The ports agree with their rules at reset (rule R33). -/
def Obligations.ResetPortsConsistent : Prop := PortsConsistent State.reset

/-- The model's choice, no rule of the spec (notes/assumptions/3.md): at reset every input port is driven to 0. -/
def Obligations.ResetInputsZero : Prop :=
  requestOf State.reset = 0#42 ∧ State.reset.pcIn = 0#32 ∧ State.reset.msbIn = 0#32 ∧ State.reset.encData = 0#16
    ∧ State.reset.decData = 0#16 ∧ State.reset.decCode = 0#8

/-- Rule R79: on the wrapper a unit's result stands in `y`, zero-extended, so the bits of `y` above the unit's width are 0. -/
def Obligations.ResultZeroExtended : Prop :=
  ∀ (i : Instr) (s t : State), exec i s = .next t →
    ((∃ v, i = .popcnt v) → t.y = t.pcOut.setWidth 32 ∧ t.y.extractLsb' 6 26 = 0#26)
    ∧ ((∃ v, i = .msb v) → t.y = t.msbOut.setWidth 32 ∧ t.y.extractLsb' 6 26 = 0#26)
    ∧ ((∃ d, i = .enc d) → t.y = t.encCode.setWidth 32 ∧ t.y.extractLsb' 7 25 = 0#25)
    ∧ ((∃ d c, i = .dec d c) → t.y = t.decCorrected.setWidth 32 ∧ t.y.extractLsb' 16 16 = 0#16)

/-! ### POPCNT and MSB -/

/-- Rule R90: POPCNT answers the number of 1 bits of its operand, 0 to 32, with no error, and changes nothing else.
That the other units' ports keep their values is the model's choice, DEDUCED: log entry 2 (notes/assumptions/2.md). -/
def Obligations.PopcntCountsOnes : Prop :=
  ∀ (v : Word) (s : State), (∀ b : CodeWord, decode (0b00#2 ++ b ++ v) = .popcnt v) ∧
    ∃ n : Nat, n = (Finset.univ.filter fun i : Fin 32 => v.getLsbD i = true).card ∧ n ≤ 32
    ∧ exec (.popcnt v) s
      = .next { s with pcIn := v, pcOut := BitVec.ofNat 6 n, ok := 1#1, y := BitVec.ofNat 32 n }

/-- Rule R93: the algebraic facts of the population count. -/
def Obligations.PopcntAlgebra : Prop :=
  (∀ v : Word, popcount v = 0#6 ↔ v = 0#32)
    ∧ (∀ v : Word, popcount v = 1#6 ↔ ∃ k < 32, v = 1#32 <<< k)
    ∧ (∀ a b : Word, a &&& b = 0#32 → (popcount (a ||| b)).toNat = (popcount a).toNat + (popcount b).toNat)
    ∧ (∀ v : Word, (popcount v).toNat % 2 = ((List.range 32).foldl (fun x i => x ^^ v.getLsbD i) false).toNat)
    ∧ (∀ a b : Word, (popcount (a ^^^ b)).toNat % 2 = ((popcount a).toNat + (popcount b).toNat) % 2)

/-- Rule R92: the reference algorithm computes the contract's function on all 2^32 operands. -/
def Obligations.SwarRefinesPopcount : Prop := ∀ v : Word, swarPopcount v = popcount v

/-- Rule R100: MSB answers 0 for 0 and otherwise `floor(log2(v)) + 1`, with no error, and changes nothing else.
That the other units' ports keep their values is the model's choice, DEDUCED: log entry 2 (notes/assumptions/2.md). -/
def Obligations.MsbFindsHighest : Prop :=
  ∀ (v : Word) (s : State), (∀ b : CodeWord, decode (0b01#2 ++ b ++ v) = .msb v) ∧
    ∃ n : Nat, n = (if v = 0#32 then 0 else Nat.log 2 v.toNat + 1) ∧ n ≤ 32
    ∧ exec (.msb v) s
      = .next { s with msbIn := v, msbOut := BitVec.ofNat 6 n, ok := 1#1, y := BitVec.ofNat 32 n }

/-- Rule R104: the algebraic facts of the highest-bit position. -/
def Obligations.MsbAlgebra : Prop :=
  (∀ v : Word, msb v = 0#6 ↔ v = 0#32)
    ∧ (∀ k < 32, (msb (1#32 <<< k)).toNat = k + 1)
    ∧ (∀ a b : Word, (msb (a ||| b)).toNat = max (msb a).toNat (msb b).toNat)
    ∧ (∀ a b : Word, a.toNat ≤ b.toNat → (msb a).toNat ≤ (msb b).toNat)
    ∧ (∀ (w : Nat) (x : BitVec w), w ≤ 32 → (msb (zext32 x)).toNat = if x = 0#w then 0 else Nat.log 2 x.toNat + 1)

/-! ### ENC -/

/-- Rule R110, its steps as R111 to R113 and its layout as R63 and R64 have them: ENC answers the code whose seven parities are these, and changes nothing
else.
That the other units' ports keep their values is the model's choice, DEDUCED: log entry 2 (notes/assumptions/2.md). -/
def Obligations.EncComputesParities : Prop :=
  ∀ (d : DataWord) (s : State),
    (∀ (b : CodeWord) (high : BitVec 16), decode (0b10#2 ++ b ++ (high ++ d)) = .enc d) ∧ ∃ code : CodeWord,
    exec (.enc d) s = .next { s with encData := d, encCode := code, ok := 1#1, y := code.setWidth 32 }
    ∧ (∀ k < 3, code.getLsbD (3 + k) = ((d.getLsbD (3 * k) ^^ d.getLsbD (3 * k + 1)) ^^ d.getLsbD (3 * k + 2)))
    ∧ (∀ k < 3, code.getLsbD k = ((d.getLsbD k ^^ d.getLsbD (k + 3)) ^^ d.getLsbD (k + 6)))
    ∧ code.getLsbD 6 = ((code.getLsbD 3 ^^ code.getLsbD 4) ^^ code.getLsbD 5)
    ∧ code.getLsbD 7 = false

/-- Rule R65: in every code the encoder produces, bit 6 is the parity of the row field, of the column field and of all nine
payload bits. -/
def Obligations.OverallParityIdentity : Prop :=
  ∀ d : DataWord,
    (enc d).getLsbD 6 = (((enc d).getLsbD 5 ^^ (enc d).getLsbD 4) ^^ (enc d).getLsbD 3)
    ∧ (enc d).getLsbD 6 = (((enc d).getLsbD 2 ^^ (enc d).getLsbD 1) ^^ (enc d).getLsbD 0)
    ∧ (enc d).getLsbD 6 = (List.range 9).foldl (fun x i => x ^^ d.getLsbD i) false

/-- Rule R115: bits 15 to 9 of the data word do not affect the code and bit 7 of the code is always 0. -/
def Obligations.EncIgnoresHighBits : Prop :=
  ∀ d : DataWord, enc d = enc (d &&& 0x01FF#16) ∧ enc d &&& 0x80#8 = 0#8

/-- Rule R116: the encoder is linear over XOR, with this table of basis codes. -/
def Obligations.EncLinear : Prop :=
  (∀ x y : DataWord, enc (x ^^^ y) = enc x ^^^ enc y) ∧ enc 0#16 = 0#8
    ∧ (List.range 9).map (fun p => enc (1#16 <<< p))
      = [0x49#8, 0x4A#8, 0x4C#8, 0x51#8, 0x52#8, 0x54#8, 0x61#8, 0x62#8, 0x64#8]
    ∧ (∀ d : DataWord, enc d
      = (List.range 9).foldl (fun x p => if d.getLsbD p = true then x ^^^ enc (1#16 <<< p) else x) 0#8)

/-- Rules R68 and R129: the encoder's image is exactly the self-consistent seven-bit codes, 32 of them, each the code of 16
payloads. -/
def Obligations.EncImageIsSelfConsistentCodes : Prop :=
  (∀ c : CodeWord, (∃ d, enc d = c) ↔ c.getLsbD 7 = false ∧ selfConsistent c = true)
    ∧ ((List.range 128).filter fun k => selfConsistent (BitVec.ofNat 8 k)).length = 32
    ∧ (∀ c : CodeWord, c.getLsbD 7 = false → selfConsistent c = true →
      ((List.range 512).filter fun p => enc (BitVec.ofNat 16 p) == c).length = 16)

/-! ### DEC, arm by arm. `total`, `colSyn`, `rowSyn` and `selfConsistent` are the model's wires of rules R127 and R129. -/

/-- Rules R126 and R127: the syndrome is the recomputed code against the received one in the low seven bits, its fields are bits
2 to 0 and 5 to 3, and `total` counts the 1 bits of these six, so it is at most 6; bit 6 is excluded. -/
def Obligations.SyndromeFields : Prop :=
  ∀ (d : DataWord) (c : CodeWord),
    (∀ j < 7, (syndrome d c).getLsbD j = ((enc d).getLsbD j ^^ c.getLsbD j))
    ∧ (∀ j < 3, (colSyn d c).getLsbD j = ((enc d).getLsbD j ^^ c.getLsbD j)
      ∧ (rowSyn d c).getLsbD j = ((enc d).getLsbD (3 + j) ^^ c.getLsbD (3 + j)))
    ∧ total d c = (Finset.univ.filter fun j : Fin 6 => ((enc d).getLsbD j ^^ c.getLsbD j) = true).card
    ∧ total d c ≤ 6

/-- Rule R129: the self-check compares parities of the received code's own fields and nothing else. -/
def Obligations.SelfConsistentChecks : Prop :=
  ∀ c : CodeWord, selfConsistent c = true ↔
    (((c.getLsbD 2 ^^ c.getLsbD 1) ^^ c.getLsbD 0) = ((c.getLsbD 5 ^^ c.getLsbD 4) ^^ c.getLsbD 3)
      ∧ c.getLsbD 6 = ((c.getLsbD 5 ^^ c.getLsbD 4) ^^ c.getLsbD 3))

/-- Rule R132, arm 1: no column or row mismatch is success with the data unchanged. -/
def Obligations.DecNoMismatch : Prop :=
  ∀ (d : DataWord) (c : CodeWord) (s : State), (∀ j < 6, c.getLsbD j = (enc d).getLsbD j) →
    exec (.dec d c) s = .next (decSucceeded d c d s)

/-- Rule R134, arm 3: a lone row mismatch succeeds with the data unchanged if the received overall-parity bit agrees with the
received column field, and fails otherwise. The failing state says nothing of the open value (log entry 1). -/
def Obligations.DecLoneRowMismatch : Prop :=
  ∀ (d : DataWord) (c : CodeWord) (s : State), total d c = 1 → colSyn d c = 0#3 →
    (c.getLsbD 6 = ((c.getLsbD 2 ^^ c.getLsbD 1) ^^ c.getLsbD 0) → exec (.dec d c) s = .next (decSucceeded d c d s))
    ∧ (c.getLsbD 6 ≠ ((c.getLsbD 2 ^^ c.getLsbD 1) ^^ c.getLsbD 0) →
      ∃ v, exec (.dec d c) s = .next (decFailed d c v s))

/-- Rule R137, arm 4 (condition R135, location R136): one column and one row mismatch with a self-consistent received code flips the payload bit of
that row and column, as the table of R137 lists them, and nothing else of the word. -/
def Obligations.DecRepairsCell : Prop :=
  ∀ (d : DataWord) (c : CodeWord) (s : State) (j k : Nat), j < 3 → k < 3 →
    rowSyn d c = 1#3 <<< j → colSyn d c = 1#3 <<< k → selfConsistent c = true →
    exec (.dec d c) s = .next (decSucceeded d c (d ^^^ (1#16 <<< (3 * j + k))) s)

/-- Rule R138, arm 5: any other combination fails. The failing state says nothing of the open value (log entry 1). -/
def Obligations.DecOtherwiseUncorrectable : Prop :=
  ∀ (d : DataWord) (c : CodeWord) (s : State), 2 ≤ total d c →
    ¬(fieldCount (colSyn d c) = 1 ∧ fieldCount (rowSyn d c) = 1 ∧ selfConsistent c = true) →
    ∃ v, exec (.dec d c) s = .next (decFailed d c v s)

/-- Rule R141 as the model takes it, its own choice of form (log entry 1, notes/assumptions/1.md): a failing DEC shows a free 16-bit
value, one for each request, in `dec_corrected` and in `y[15:0]`, and `y[31:16]` is 0; every other effect is as the rules say. -/
def Obligations.DecFailureValueOpen : Prop :=
  ∀ (d : DataWord) (c : CodeWord) (s : State), decClass d c = .uncorrectable →
    exec (.dec d c) s = .next (decFailed d c (Config.decFailData d c s.requestCount) s)

/-! ### DEC, what follows -/

/-- Rule R145: a pair that arrives as the encoder made it is accepted unchanged, class NO_ERROR. -/
def Obligations.DecRoundTrip : Prop :=
  ∀ (d : DataWord) (s : State), decClass d (enc d) = .noError
    ∧ exec (.dec d (enc d)) s = .next (decSucceeded d (enc d) d s)

/-- Rule R146: a single flipped payload bit is repaired, class CORRECTED, with the basis code of that bit as the syndrome. -/
def Obligations.DecCorrectsPayloadFlip : Prop :=
  ∀ (d : DataWord) (p : Nat) (s : State), p < 9 →
    decClass (d ^^^ (1#16 <<< p)) (enc d) = .corrected
    ∧ syndrome (d ^^^ (1#16 <<< p)) (enc d) = (enc (1#16 <<< p)).extractLsb' 0 7
    ∧ exec (.dec (d ^^^ (1#16 <<< p)) (enc d)) s = .next (decSucceeded (d ^^^ (1#16 <<< p)) (enc d) d s)

/-- Rule R147: a lone mismatch leaves the received code inconsistent, so arm 2 (rule R133) never succeeds: a lone column
mismatch always fails. The failing state says nothing of the open value (log entry 1). -/
def Obligations.ArmTwoNeverSucceeds : Prop :=
  (∀ (d : DataWord) (c : CodeWord), total d c = 1 → selfConsistent c = false)
    ∧ (∀ (d : DataWord) (c : CodeWord), decClass d c ≠ .codeColOk)
    ∧ (∀ (d : DataWord) (c : CodeWord) (s : State), total d c = 1 → colSyn d c ≠ 0#3 →
      ∃ v, exec (.dec d c) s = .next (decFailed d c v s))

/-- Rule R148: a received code that differs from the expected one in bit 6 only is taken for no error. -/
def Obligations.DecBitSixBlindSpot : Prop :=
  ∀ (d : DataWord) (c : CodeWord) (s : State), syndrome d c = 0x40#7 →
    total d c = 0 ∧ decClass d c = .noError ∧ exec (.dec d c) s = .next (decSucceeded d c d s)

/-- Rule R149: a single flipped row-parity bit of the code is tolerated. -/
def Obligations.DecToleratesRowParityFlip : Prop :=
  ∀ (d : DataWord) (j : Nat) (s : State), 3 ≤ j → j ≤ 5 →
    decClass d (enc d ^^^ (1#8 <<< j)) = .codeRowOk
    ∧ exec (.dec d (enc d ^^^ (1#8 <<< j))) s = .next (decSucceeded d (enc d ^^^ (1#8 <<< j)) d s)

/-- Rule R150: a single flipped column-parity bit of the code is reported as uncorrectable, although the data is intact.
The failing state says nothing of the open value (log entry 1). -/
def Obligations.DecReportsColumnParityFlip : Prop :=
  ∀ (d : DataWord) (j : Nat) (s : State), j < 3 →
    selfConsistent (enc d ^^^ (1#8 <<< j)) = false
    ∧ ∃ v, exec (.dec d (enc d ^^^ (1#8 <<< j))) s = .next (decFailed d (enc d ^^^ (1#8 <<< j)) v s)

/-- Rule R151: every pair of flips among the 16 protected bits of a valid pair is detected. The failing state says
nothing of the open value (log entry 1). -/
def Obligations.DecDetectsDoubleFlips : Prop :=
  ∀ (d : DataWord) (p q : Nat) (s : State), p < 16 → q < 16 → p ≠ q →
    ∃ (d' : DataWord) (c' : CodeWord) (v : DataWord), flipProtected p (flipProtected q (d, enc d)) = (d', c')
      ∧ exec (.dec d' c') s = .next (decFailed d' c' v s)

/-- Rules R125, R152, R153 and R163: DEC accepts a pair exactly when it differs from some valid pair in nothing, in one payload bit, or in one
of code bits 3 to 6 (bit 7 never counting), and then it answers that pair's data word. -/
def Obligations.DecAcceptsExactlyNearPairs : Prop :=
  ∀ (d : DataWord) (c : CodeWord) (v : DataWord) (s : State),
    exec (.dec d c) s = .next (decSucceeded d c v s) ↔
      (d = v ∧ (syndrome v c = 0#7 ∨ ∃ j, 3 ≤ j ∧ j ≤ 6 ∧ syndrome v c = 1#7 <<< j))
      ∨ (∃ p < 9, d = v ^^^ (1#16 <<< p) ∧ syndrome v c = 0#7)

/-- Rule R153: the census of the classes for one payload over the 128 seven-bit codes, and the arms by which it fails. -/
def Obligations.DecClassCensus : Prop :=
  ∀ d : DataWord,
    ((List.range 128).filter fun k => decClass d (BitVec.ofNat 8 k) = .noError).length = 2
    ∧ ((List.range 128).filter fun k => decClass d (BitVec.ofNat 8 k) = .codeColOk).length = 0
    ∧ ((List.range 128).filter fun k => decClass d (BitVec.ofNat 8 k) = .codeRowOk).length = 3
    ∧ ((List.range 128).filter fun k => decClass d (BitVec.ofNat 8 k) = .corrected).length = 9
    ∧ ((List.range 128).filter fun k => decClass d (BitVec.ofNat 8 k) = .uncorrectable
        ∧ total d (BitVec.ofNat 8 k) = 1 ∧ colSyn d (BitVec.ofNat 8 k) ≠ 0#3).length = 6
    ∧ ((List.range 128).filter fun k => decClass d (BitVec.ofNat 8 k) = .uncorrectable
        ∧ total d (BitVec.ofNat 8 k) = 1 ∧ colSyn d (BitVec.ofNat 8 k) = 0#3).length = 3
    ∧ ((List.range 128).filter fun k => decClass d (BitVec.ofNat 8 k) = .uncorrectable
        ∧ 2 ≤ total d (BitVec.ofNat 8 k)).length = 105

/-- Rule R140: on success the answered word is the input word, or the input word with one payload bit inverted in class
CORRECTED; bits 15 to 9 always reappear. -/
def Obligations.DecSuccessPassesWordThrough : Prop :=
  ∀ (d : DataWord) (c : CodeWord) (s t : State), exec (.dec d c) s = .next t → t.decOk = 1#1 →
    t.decCorrected.extractLsb' 9 7 = d.extractLsb' 9 7
    ∧ (decClass d c ≠ .corrected → t.decCorrected = d)
    ∧ (decClass d c = .corrected → ∃ p < 9, t.decCorrected = d ^^^ (1#16 <<< p))

/-- Rule R143: code bit 7 affects nothing but, possibly, the open value, and data bits 15 to 9 only pass through. -/
def Obligations.DecIgnoresInputBits : Prop :=
  (∀ (d : DataWord) (c : CodeWord), correct d (c ^^^ 0x80#8) = correct d c)
    ∧ (∀ (d h : DataWord) (c : CodeWord), h &&& 0x01FF#16 = 0#16 →
      correct (d ^^^ h) c = (correct d c).map fun v => v ^^^ h)

/-- Rule R154: a flip of data bit 9 to 15 changes neither the expected code nor the class: with an otherwise intact pair the flipped
word is answered with success. -/
def Obligations.HighDataBitsUnprotected : Prop :=
  ∀ (d : DataWord) (p : Nat) (s : State), 9 ≤ p → p ≤ 15 →
    enc (d ^^^ (1#16 <<< p)) = enc d
    ∧ (∀ c, decClass (d ^^^ (1#16 <<< p)) c = decClass d c)
    ∧ exec (.dec (d ^^^ (1#16 <<< p)) (enc d)) s
      = .next (decSucceeded (d ^^^ (1#16 <<< p)) (enc d) (d ^^^ (1#16 <<< p)) s)

/-- Rule R155: the two reversals of the flip index cancel, and the bit to flip is the one whose basis code has the syndrome's low
six bits. -/
def Obligations.FlipIndexSimplifies : Prop :=
  ∀ (d : DataWord) (c : CodeWord), decClass d c = .corrected →
    cell (faultyRow d c) (faultyColumn d c) = (fieldMsb (rowSyn d c) - 1) * 3 + (fieldMsb (colSyn d c) - 1)
    ∧ (∀ p < 9, (enc (1#16 <<< p)).extractLsb' 0 6 = (syndrome d c).extractLsb' 0 6
      ↔ p = cell (faultyRow d c) (faultyColumn d c))

/-! ### Runs -/

/-- Rules R47 and R194: every run of every finite sequence of requests, from every state, ends with one response for each request,
and each is the answer of its own request's operation. -/
def Obligations.RunAnswersEachRequest : Prop :=
  ∀ (rs : List Request) (s : State), ∃ t out, runRequests rs s = .next (t, out)
    ∧ List.Forall₂ (fun r rsp => Answers (decode r) (rspOk rsp) (rspY rsp)) rs out

/-- Rule R46: reordering the requests of a run, from any two states, gives the same multiset of pairs of a request and the
visible part of its response. -/
def Obligations.RunOrderIrrelevant : Prop :=
  ∀ (rs rs' : List Request) (s s' : State), rs.Perm rs' →
    ∃ t out t' out', runRequests rs s = .next (t, out) ∧ runRequests rs' s' = .next (t', out')
      ∧ (rs.zip (out.map visible)).Perm (rs'.zip (out'.map visible))
end

