-- ==== Sys2Proof/Laws/Primitives.lean ====
section
/-! SUPPORT. Single bits of a word, and the ranges of the two primitives' results. -/

namespace Sys2Proof.Machine

theorem bit_toNat {w : Nat} (v : BitVec w) (i : Nat) : (bit v i).toNat = (v.getLsbD i).toNat := by
  cases h : v.getLsbD i <;>
    simp [bit, BitVec.extractLsb', BitVec.getLsbD, Nat.testBit, Nat.one_and_eq_mod_two] at * <;> omega

theorem bit_eq_ofBool {w : Nat} (v : BitVec w) (i : Nat) : bit v i = BitVec.ofBool (v.getLsbD i) := by
  apply BitVec.eq_of_toNat_eq
  simp [bit_toNat]

/-- A sum of `n` one-bit numbers is at most `n`. -/
theorem countOnes_le {w : Nat} (v : BitVec w) (n : Nat) : countOnes v n ≤ n := by
  induction n with
  | zero => simp [countOnes]
  | succ n ih =>
    have := (bit v n).isLt
    simp only [countOnes]
    omega

/-- The 6-bit result holds the whole count (rules R7, R15). -/
theorem popcount_toNat (v : Word) : (popcount v).toNat = countOnes v 32 := by
  have := countOnes_le v 32
  simp only [popcount, BitVec.toNat_ofNat]
  omega

/-- The scan of `n` bits answers at most `n`. -/
theorem highestOne_le {w : Nat} (v : BitVec w) (n : Nat) : highestOne v n ≤ n := by
  induction n with
  | zero => simp [highestOne]
  | succ n ih =>
    simp only [highestOne]
    split <;> omega

/-- The 6-bit result holds the whole position (rule R8). -/
theorem msb_toNat (v : Word) : (msb v).toNat = highestOne v 32 := by
  have := highestOne_le v 32
  simp only [msb, BitVec.toNat_ofNat]
  omega

end Sys2Proof.Machine
end

