-- ==== Sys2Proof/Laws/Codec.lean ====
section
/-! SUPPORT. The code as a function of nine payload bits, and the decoder's verdict as a function of the syndrome. -/

namespace Sys2Proof.Machine

/-- The code made from the nine payload bits `p[0]` to `p[8]` (rule R110). -/
def encBits (p0 p1 p2 p3 p4 p5 p6 p7 p8 : Bool) : CodeWord :=
  BitVec.ofNat 8 (((p0 ^^ p3) ^^ p6).toNat + 2 * ((p1 ^^ p4) ^^ p7).toNat + 4 * ((p2 ^^ p5) ^^ p8).toNat
    + 8 * ((p0 ^^ p1) ^^ p2).toNat + 16 * ((p3 ^^ p4) ^^ p5).toNat + 32 * ((p6 ^^ p7) ^^ p8).toNat
    + 64 * (((p0 ^^ p1) ^^ p2) ^^ ((p3 ^^ p4) ^^ p5) ^^ ((p6 ^^ p7) ^^ p8)).toNat)

/-- What ENC computes, read from the payload bits (rules R110 to R113). -/
theorem enc_eq_encBits (d : DataWord) :
    enc d = encBits (d.getLsbD 0) (d.getLsbD 1) (d.getLsbD 2) (d.getLsbD 3) (d.getLsbD 4) (d.getLsbD 5)
      (d.getLsbD 6) (d.getLsbD 7) (d.getLsbD 8) := by
  have payloadBit : ∀ i < 9, bit (payload d) i = BitVec.ofBool (d.getLsbD i) := by
    intro i hi
    simp [bit_eq_ofBool, payload, hi]
  simp only [enc, rowParity, columnParity, matrixBit, cell, parity3, Nat.reduceMul, Nat.reduceSub, Nat.reduceAdd]
  simp only [payloadBit, Nat.reduceLT]
  cases d.getLsbD 0 <;> cases d.getLsbD 1 <;> cases d.getLsbD 2 <;> cases d.getLsbD 3 <;> cases d.getLsbD 4 <;>
    cases d.getLsbD 5 <;> cases d.getLsbD 6 <;> cases d.getLsbD 7 <;> cases d.getLsbD 8 <;> rfl

/-- The self-check in the received code's bits (rule R129). -/
theorem selfConsistent_eq : ∀ c : CodeWord, selfConsistent c =
    ((((c.getLsbD 2 ^^ c.getLsbD 1) ^^ c.getLsbD 0) == ((c.getLsbD 5 ^^ c.getLsbD 4) ^^ c.getLsbD 3))
      && c.getLsbD 6 == ((c.getLsbD 5 ^^ c.getLsbD 4) ^^ c.getLsbD 3)) := by
  decide

/-- The check of arm 3 in the received code's bits (rule R134). -/
theorem columnAgreesWithOverall_eq : ∀ c : CodeWord, columnAgreesWithOverall c =
    (c.getLsbD 6 == ((c.getLsbD 2 ^^ c.getLsbD 1) ^^ c.getLsbD 0)) := by
  decide

/-- The parity bits of a code, whatever the payload bits are (rules R65, R117). -/
theorem encBits_parities : ∀ p0 p1 p2 p3 p4 p5 p6 p7 p8 : Bool, ∀ e : CodeWord, e = encBits p0 p1 p2 p3 p4 p5 p6 p7 p8 →
    e.getLsbD 6 = ((e.getLsbD 5 ^^ e.getLsbD 4) ^^ e.getLsbD 3) ∧ e.getLsbD 6 = ((e.getLsbD 2 ^^ e.getLsbD 1) ^^ e.getLsbD 0)
      ∧ e.getLsbD 7 = false := by
  rintro p0 p1 p2 p3 p4 p5 p6 p7 p8 _ rfl
  revert p0 p1 p2 p3 p4 p5 p6 p7 p8
  decide

theorem syndrome_getLsbD (d : DataWord) (c : CodeWord) (j : Nat) (hj : j < 7) :
    (syndrome d c).getLsbD j = ((enc d).getLsbD j ^^ c.getLsbD j) := by
  simp [syndrome, lowSeven, hj]

/-- The received code's checks give on the syndrome what they give on the code, the recomputed code passing both
(the closure under XOR of rule R147). -/
theorem checks_of_syndrome (d : DataWord) (c : CodeWord) :
    selfConsistent c = selfConsistent ((syndrome d c).setWidth 8)
    ∧ columnAgreesWithOverall c = columnAgreesWithOverall ((syndrome d c).setWidth 8) := by
  obtain ⟨rowParityBit, columnParityBit, -⟩ := encBits_parities _ _ _ _ _ _ _ _ _ (enc d) (enc_eq_encBits d)
  have bits : ∀ j < 7, ((syndrome d c).setWidth 8).getLsbD j = ((enc d).getLsbD j ^^ c.getLsbD j) := by
    intro j hj
    rw [BitVec.getLsbD_setWidth, syndrome_getLsbD d c j hj]
    simp [show j < 8 by omega]
  simp only [selfConsistent_eq, columnAgreesWithOverall_eq, bits, Nat.reduceLT]
  generalize (enc d).getLsbD 0 = e0 at *
  generalize (enc d).getLsbD 1 = e1 at *
  generalize (enc d).getLsbD 2 = e2 at *
  generalize (enc d).getLsbD 3 = e3 at *
  generalize (enc d).getLsbD 4 = e4 at *
  generalize (enc d).getLsbD 5 = e5 at *
  generalize (enc d).getLsbD 6 = e6 at *
  generalize c.getLsbD 0 = c0
  generalize c.getLsbD 1 = c1
  generalize c.getLsbD 2 = c2
  generalize c.getLsbD 3 = c3
  generalize c.getLsbD 4 = c4
  generalize c.getLsbD 5 = c5
  generalize c.getLsbD 6 = c6
  subst columnParityBit
  have e5_eq : e5 = ((((e2 ^^ e1) ^^ e0) ^^ e4) ^^ e3) := by
    revert rowParityBit; revert e0 e1 e2 e3 e4 e5; decide
  subst e5_eq
  constructor
  · cases e0 <;> cases e1 <;> cases e2 <;> cases e3 <;> cases e4 <;> revert c0 c1 c2 c3 c4 c5 c6 <;> decide
  · cases e0 <;> cases e1 <;> cases e2 <;> cases c0 <;> cases c1 <;> cases c2 <;> cases c6 <;> rfl

/-- A syndrome, taken as a code received with the zero word, is its own syndrome. -/
theorem syndrome_zero (x : Syndrome) : syndrome 0#16 (x.setWidth 8) = x := by
  have : enc 0#16 = 0#8 := by decide
  ext j hj
  simp [syndrome, lowSeven, this, show j < 8 by omega, hj]

/-- THE VERDICT DEPENDS ON THE SYNDROME ALONE: it is the verdict on the syndrome itself, received with the zero word. -/
theorem decClass_eq_of_syndrome (d : DataWord) (c : CodeWord) :
    decClass d c = decClass 0#16 ((syndrome d c).setWidth 8) := by
  have hcol : colSyn 0#16 ((syndrome d c).setWidth 8) = colSyn d c := by simp only [colSyn, syndrome_zero]
  have hrow : rowSyn 0#16 ((syndrome d c).setWidth 8) = rowSyn d c := by simp only [rowSyn, syndrome_zero]
  have htotal : total 0#16 ((syndrome d c).setWidth 8) = total d c := by simp only [total, hcol, hrow]
  simp only [decClass, hcol, hrow, htotal, ← (checks_of_syndrome d c).1, ← (checks_of_syndrome d c).2]

end Sys2Proof.Machine
end

