-- ==== Sys2Proof/Laws/Encoding.lean ====
section
/-! SUPPORT. The fields of a request bundle: taking a bundle apart gives what it was put together from. -/

namespace Sys2Proof

@[simp] theorem requestSel_bundle (sel : BitVec 2) (b : CodeWord) (a : Word) : requestSel (bundle sel b a) = sel := by
  ext i hi
  simp only [requestSel, bundle, BitVec.getElem_extractLsb', BitVec.getLsbD_append]
  simp [show ¬ 40 + i < 32 by omega, show ¬ 40 + i - 32 < 8 by omega, show 40 + i - 32 - 8 = i by omega, hi]

@[simp] theorem requestB_bundle (sel : BitVec 2) (b : CodeWord) (a : Word) : requestB (bundle sel b a) = b := by
  ext i hi
  simp only [requestB, bundle, BitVec.getElem_extractLsb', BitVec.getLsbD_append]
  simp [hi]

@[simp] theorem requestA_bundle (sel : BitVec 2) (b : CodeWord) (a : Word) : requestA (bundle sel b a) = a := by
  ext i hi
  simp only [requestA, bundle, BitVec.getElem_extractLsb', BitVec.getLsbD_append]
  simp [hi]

/-- A request is the bundle of its own fields (rule R69). -/
theorem bundle_fields (r : Request) : bundle (requestSel r) (requestB r) (requestA r) = r := by
  ext i hi
  simp only [bundle, requestSel, requestB, requestA, ← BitVec.getLsbD_eq_getElem, BitVec.getLsbD_append,
    BitVec.getLsbD_extractLsb']
  by_cases h : i < 32
  · simp [h]
  · by_cases h' : i - 32 < 8
    · simp [h, h', show 32 + (i - 32) = i by omega]
    · simp [h, h', show i - 32 - 8 < 2 by omega, show 40 + (i - 32 - 8) = i by omega]

/-- A 16-bit operand placed in `a` is read back from `a[15:0]` (rule R71). -/
@[simp] theorem dataOperand_setWidth (d : DataWord) : dataOperand (d.setWidth 32) = d := by
  ext i hi
  simp [dataOperand, show i < 32 by omega, hi]

theorem decode_popcnt (b : CodeWord) (a : Word) : decode (bundle 0b00#2 b a) = .popcnt a := by
  simp [decode]

theorem decode_msb (b : CodeWord) (a : Word) : decode (bundle 0b01#2 b a) = .msb a := by
  simp [decode]

theorem decode_enc (b : CodeWord) (a : Word) : decode (bundle 0b10#2 b a) = .enc (dataOperand a) := by
  simp [decode]

theorem decode_dec (b : CodeWord) (a : Word) : decode (bundle 0b11#2 b a) = .dec (dataOperand a) b := by
  simp [decode]

/-- A two-bit select has one of four values, so a request is of one of four kinds (rule R72). -/
theorem decode_cases (r : Request) :
    (requestSel r = 0b00#2 ∧ decode r = .popcnt (requestA r))
    ∨ (requestSel r = 0b01#2 ∧ decode r = .msb (requestA r))
    ∨ (requestSel r = 0b10#2 ∧ decode r = .enc (dataOperand (requestA r)))
    ∨ (requestSel r = 0b11#2 ∧ decode r = .dec (dataOperand (requestA r)) (requestB r)) := by
  have four : ∀ x : BitVec 2, x = 0b00#2 ∨ x = 0b01#2 ∨ x = 0b10#2 ∨ x = 0b11#2 := by decide
  rcases four (requestSel r) with h | h | h | h <;> simp [decode, h]

namespace Machine

/-- Presenting a request puts exactly that request on the ports (rules R44, R189). -/
@[simp] theorem requestOf_presentRequest (r : Request) (s : State) : requestOf (presentRequest r s) = r :=
  bundle_fields r

end Machine

end Sys2Proof
end

