-- ==== Sys2Proof/Laws/State.lean ====
section
/-! SUPPORT. What each operation over the ports leaves in each field of the state: one lemma per field per operation. -/

namespace Sys2Proof.Machine

variable (s : State)

@[simp] theorem presentRequest_sel (r : Request) : (presentRequest r s).sel = requestSel r := rfl
@[simp] theorem presentRequest_b (r : Request) : (presentRequest r s).b = requestB r := rfl
@[simp] theorem presentRequest_a (r : Request) : (presentRequest r s).a = requestA r := rfl
@[simp] theorem presentRequest_ok (r : Request) : (presentRequest r s).ok = s.ok := rfl
@[simp] theorem presentRequest_y (r : Request) : (presentRequest r s).y = s.y := rfl
@[simp] theorem presentRequest_pcIn (r : Request) : (presentRequest r s).pcIn = s.pcIn := rfl
@[simp] theorem presentRequest_pcOut (r : Request) : (presentRequest r s).pcOut = s.pcOut := rfl
@[simp] theorem presentRequest_msbIn (r : Request) : (presentRequest r s).msbIn = s.msbIn := rfl
@[simp] theorem presentRequest_msbOut (r : Request) : (presentRequest r s).msbOut = s.msbOut := rfl
@[simp] theorem presentRequest_encData (r : Request) : (presentRequest r s).encData = s.encData := rfl
@[simp] theorem presentRequest_encCode (r : Request) : (presentRequest r s).encCode = s.encCode := rfl
@[simp] theorem presentRequest_decData (r : Request) : (presentRequest r s).decData = s.decData := rfl
@[simp] theorem presentRequest_decCode (r : Request) : (presentRequest r s).decCode = s.decCode := rfl
@[simp] theorem presentRequest_decOk (r : Request) : (presentRequest r s).decOk = s.decOk := rfl
@[simp] theorem presentRequest_decCorrected (r : Request) : (presentRequest r s).decCorrected = s.decCorrected := rfl
@[simp] theorem presentRequest_requestCount (r : Request) : (presentRequest r s).requestCount = s.requestCount + 1 := rfl

@[simp] theorem respond_sel (k : Bit) (w : Word) : (respond k w s).sel = s.sel := rfl
@[simp] theorem respond_b (k : Bit) (w : Word) : (respond k w s).b = s.b := rfl
@[simp] theorem respond_a (k : Bit) (w : Word) : (respond k w s).a = s.a := rfl
@[simp] theorem respond_ok (k : Bit) (w : Word) : (respond k w s).ok = k := rfl
@[simp] theorem respond_y (k : Bit) (w : Word) : (respond k w s).y = w := rfl
@[simp] theorem respond_pcIn (k : Bit) (w : Word) : (respond k w s).pcIn = s.pcIn := rfl
@[simp] theorem respond_pcOut (k : Bit) (w : Word) : (respond k w s).pcOut = s.pcOut := rfl
@[simp] theorem respond_msbIn (k : Bit) (w : Word) : (respond k w s).msbIn = s.msbIn := rfl
@[simp] theorem respond_msbOut (k : Bit) (w : Word) : (respond k w s).msbOut = s.msbOut := rfl
@[simp] theorem respond_encData (k : Bit) (w : Word) : (respond k w s).encData = s.encData := rfl
@[simp] theorem respond_encCode (k : Bit) (w : Word) : (respond k w s).encCode = s.encCode := rfl
@[simp] theorem respond_decData (k : Bit) (w : Word) : (respond k w s).decData = s.decData := rfl
@[simp] theorem respond_decCode (k : Bit) (w : Word) : (respond k w s).decCode = s.decCode := rfl
@[simp] theorem respond_decOk (k : Bit) (w : Word) : (respond k w s).decOk = s.decOk := rfl
@[simp] theorem respond_decCorrected (k : Bit) (w : Word) : (respond k w s).decCorrected = s.decCorrected := rfl
@[simp] theorem respond_requestCount (k : Bit) (w : Word) : (respond k w s).requestCount = s.requestCount := rfl

@[simp] theorem drivePopcount_sel (v : Word) (n : Count) : (drivePopcount v n s).sel = s.sel := rfl
@[simp] theorem drivePopcount_b (v : Word) (n : Count) : (drivePopcount v n s).b = s.b := rfl
@[simp] theorem drivePopcount_a (v : Word) (n : Count) : (drivePopcount v n s).a = s.a := rfl
@[simp] theorem drivePopcount_ok (v : Word) (n : Count) : (drivePopcount v n s).ok = s.ok := rfl
@[simp] theorem drivePopcount_y (v : Word) (n : Count) : (drivePopcount v n s).y = s.y := rfl
@[simp] theorem drivePopcount_pcIn (v : Word) (n : Count) : (drivePopcount v n s).pcIn = v := rfl
@[simp] theorem drivePopcount_pcOut (v : Word) (n : Count) : (drivePopcount v n s).pcOut = n := rfl
@[simp] theorem drivePopcount_msbIn (v : Word) (n : Count) : (drivePopcount v n s).msbIn = s.msbIn := rfl
@[simp] theorem drivePopcount_msbOut (v : Word) (n : Count) : (drivePopcount v n s).msbOut = s.msbOut := rfl
@[simp] theorem drivePopcount_encData (v : Word) (n : Count) : (drivePopcount v n s).encData = s.encData := rfl
@[simp] theorem drivePopcount_encCode (v : Word) (n : Count) : (drivePopcount v n s).encCode = s.encCode := rfl
@[simp] theorem drivePopcount_decData (v : Word) (n : Count) : (drivePopcount v n s).decData = s.decData := rfl
@[simp] theorem drivePopcount_decCode (v : Word) (n : Count) : (drivePopcount v n s).decCode = s.decCode := rfl
@[simp] theorem drivePopcount_decOk (v : Word) (n : Count) : (drivePopcount v n s).decOk = s.decOk := rfl
@[simp] theorem drivePopcount_decCorrected (v : Word) (n : Count) : (drivePopcount v n s).decCorrected = s.decCorrected := rfl
@[simp] theorem drivePopcount_requestCount (v : Word) (n : Count) : (drivePopcount v n s).requestCount = s.requestCount := rfl

@[simp] theorem driveMsb_sel (v : Word) (n : Count) : (driveMsb v n s).sel = s.sel := rfl
@[simp] theorem driveMsb_b (v : Word) (n : Count) : (driveMsb v n s).b = s.b := rfl
@[simp] theorem driveMsb_a (v : Word) (n : Count) : (driveMsb v n s).a = s.a := rfl
@[simp] theorem driveMsb_ok (v : Word) (n : Count) : (driveMsb v n s).ok = s.ok := rfl
@[simp] theorem driveMsb_y (v : Word) (n : Count) : (driveMsb v n s).y = s.y := rfl
@[simp] theorem driveMsb_pcIn (v : Word) (n : Count) : (driveMsb v n s).pcIn = s.pcIn := rfl
@[simp] theorem driveMsb_pcOut (v : Word) (n : Count) : (driveMsb v n s).pcOut = s.pcOut := rfl
@[simp] theorem driveMsb_msbIn (v : Word) (n : Count) : (driveMsb v n s).msbIn = v := rfl
@[simp] theorem driveMsb_msbOut (v : Word) (n : Count) : (driveMsb v n s).msbOut = n := rfl
@[simp] theorem driveMsb_encData (v : Word) (n : Count) : (driveMsb v n s).encData = s.encData := rfl
@[simp] theorem driveMsb_encCode (v : Word) (n : Count) : (driveMsb v n s).encCode = s.encCode := rfl
@[simp] theorem driveMsb_decData (v : Word) (n : Count) : (driveMsb v n s).decData = s.decData := rfl
@[simp] theorem driveMsb_decCode (v : Word) (n : Count) : (driveMsb v n s).decCode = s.decCode := rfl
@[simp] theorem driveMsb_decOk (v : Word) (n : Count) : (driveMsb v n s).decOk = s.decOk := rfl
@[simp] theorem driveMsb_decCorrected (v : Word) (n : Count) : (driveMsb v n s).decCorrected = s.decCorrected := rfl
@[simp] theorem driveMsb_requestCount (v : Word) (n : Count) : (driveMsb v n s).requestCount = s.requestCount := rfl

@[simp] theorem driveEncoder_sel (d : DataWord) (c : CodeWord) : (driveEncoder d c s).sel = s.sel := rfl
@[simp] theorem driveEncoder_b (d : DataWord) (c : CodeWord) : (driveEncoder d c s).b = s.b := rfl
@[simp] theorem driveEncoder_a (d : DataWord) (c : CodeWord) : (driveEncoder d c s).a = s.a := rfl
@[simp] theorem driveEncoder_ok (d : DataWord) (c : CodeWord) : (driveEncoder d c s).ok = s.ok := rfl
@[simp] theorem driveEncoder_y (d : DataWord) (c : CodeWord) : (driveEncoder d c s).y = s.y := rfl
@[simp] theorem driveEncoder_pcIn (d : DataWord) (c : CodeWord) : (driveEncoder d c s).pcIn = s.pcIn := rfl
@[simp] theorem driveEncoder_pcOut (d : DataWord) (c : CodeWord) : (driveEncoder d c s).pcOut = s.pcOut := rfl
@[simp] theorem driveEncoder_msbIn (d : DataWord) (c : CodeWord) : (driveEncoder d c s).msbIn = s.msbIn := rfl
@[simp] theorem driveEncoder_msbOut (d : DataWord) (c : CodeWord) : (driveEncoder d c s).msbOut = s.msbOut := rfl
@[simp] theorem driveEncoder_encData (d : DataWord) (c : CodeWord) : (driveEncoder d c s).encData = d := rfl
@[simp] theorem driveEncoder_encCode (d : DataWord) (c : CodeWord) : (driveEncoder d c s).encCode = c := rfl
@[simp] theorem driveEncoder_decData (d : DataWord) (c : CodeWord) : (driveEncoder d c s).decData = s.decData := rfl
@[simp] theorem driveEncoder_decCode (d : DataWord) (c : CodeWord) : (driveEncoder d c s).decCode = s.decCode := rfl
@[simp] theorem driveEncoder_decOk (d : DataWord) (c : CodeWord) : (driveEncoder d c s).decOk = s.decOk := rfl
@[simp] theorem driveEncoder_decCorrected (d : DataWord) (c : CodeWord) : (driveEncoder d c s).decCorrected = s.decCorrected := rfl
@[simp] theorem driveEncoder_requestCount (d : DataWord) (c : CodeWord) : (driveEncoder d c s).requestCount = s.requestCount := rfl

@[simp] theorem driveDecoder_sel (d : DataWord) (c : CodeWord) (k : Bit) (v : DataWord) : (driveDecoder d c k v s).sel = s.sel := rfl
@[simp] theorem driveDecoder_b (d : DataWord) (c : CodeWord) (k : Bit) (v : DataWord) : (driveDecoder d c k v s).b = s.b := rfl
@[simp] theorem driveDecoder_a (d : DataWord) (c : CodeWord) (k : Bit) (v : DataWord) : (driveDecoder d c k v s).a = s.a := rfl
@[simp] theorem driveDecoder_ok (d : DataWord) (c : CodeWord) (k : Bit) (v : DataWord) : (driveDecoder d c k v s).ok = s.ok := rfl
@[simp] theorem driveDecoder_y (d : DataWord) (c : CodeWord) (k : Bit) (v : DataWord) : (driveDecoder d c k v s).y = s.y := rfl
@[simp] theorem driveDecoder_pcIn (d : DataWord) (c : CodeWord) (k : Bit) (v : DataWord) : (driveDecoder d c k v s).pcIn = s.pcIn := rfl
@[simp] theorem driveDecoder_pcOut (d : DataWord) (c : CodeWord) (k : Bit) (v : DataWord) : (driveDecoder d c k v s).pcOut = s.pcOut := rfl
@[simp] theorem driveDecoder_msbIn (d : DataWord) (c : CodeWord) (k : Bit) (v : DataWord) : (driveDecoder d c k v s).msbIn = s.msbIn := rfl
@[simp] theorem driveDecoder_msbOut (d : DataWord) (c : CodeWord) (k : Bit) (v : DataWord) : (driveDecoder d c k v s).msbOut = s.msbOut := rfl
@[simp] theorem driveDecoder_encData (d : DataWord) (c : CodeWord) (k : Bit) (v : DataWord) : (driveDecoder d c k v s).encData = s.encData := rfl
@[simp] theorem driveDecoder_encCode (d : DataWord) (c : CodeWord) (k : Bit) (v : DataWord) : (driveDecoder d c k v s).encCode = s.encCode := rfl
@[simp] theorem driveDecoder_decData (d : DataWord) (c : CodeWord) (k : Bit) (v : DataWord) : (driveDecoder d c k v s).decData = d := rfl
@[simp] theorem driveDecoder_decCode (d : DataWord) (c : CodeWord) (k : Bit) (v : DataWord) : (driveDecoder d c k v s).decCode = c := rfl
@[simp] theorem driveDecoder_decOk (d : DataWord) (c : CodeWord) (k : Bit) (v : DataWord) : (driveDecoder d c k v s).decOk = k := rfl
@[simp] theorem driveDecoder_decCorrected (d : DataWord) (c : CodeWord) (k : Bit) (v : DataWord) : (driveDecoder d c k v s).decCorrected = v := rfl
@[simp] theorem driveDecoder_requestCount (d : DataWord) (c : CodeWord) (k : Bit) (v : DataWord) : (driveDecoder d c k v s).requestCount = s.requestCount := rfl

/-- The free value belongs to the request, not to what stands on the ports: no answer of a unit or of the wrapper moves it. -/
@[simp] theorem failData_respond (d : DataWord) (c : CodeWord) (k : Bit) (w : Word) :
    failData d c (respond k w s) = failData d c s := rfl

@[simp] theorem failData_driveDecoder (d d' : DataWord) (c c' : CodeWord) (k : Bit) (v : DataWord) :
    failData d c (driveDecoder d' c' k v s) = failData d c s := rfl

end Sys2Proof.Machine
end

