-- ==== Sys2Proof/Laws/Exec.lean ====
section
/-! SUPPORT. What each meaning answers, and everything that an operation or a step can do. -/

namespace Sys2Proof.Machine

theorem exec_popcnt (v : Word) (s : State) :
    exec (.popcnt v) s = .next (respond 1#1 (zext32 (popcount v)) (drivePopcount v (popcount v) s)) := rfl

theorem exec_msb (v : Word) (s : State) :
    exec (.msb v) s = .next (respond 1#1 (zext32 (msb v)) (driveMsb v (msb v) s)) := rfl

theorem exec_enc (d : DataWord) (s : State) :
    exec (.enc d) s = .next (respond 1#1 (zext32 (enc d)) (driveEncoder d (enc d) s)) := rfl

/-- A DEC whose correction succeeds (rule R140). -/
theorem exec_dec_of_some {d : DataWord} {c : CodeWord} {v : DataWord} (h : correct d c = some v) (s : State) :
    exec (.dec d c) s = .next (respond 1#1 (zext32 v) (driveDecoder d c 1#1 v s)) := by
  simp only [exec, execDec, h]

/-- A DEC that reports an uncorrectable word (rule R141). -/
theorem exec_dec_of_none {d : DataWord} {c : CodeWord} (h : correct d c = none) (s : State) :
    exec (.dec d c) s
      = .next (respond 0#1 (zext32 (failData d c s)) (driveDecoder d c 0#1 (failData d c s) s)) := by
  simp only [exec, execDec, h]

/-- Everything an operation can do: if it answers `next t`, it is one of these five. -/
theorem exec_next_cases {i : Instr} {s t : State} (h : exec i s = .next t) :
    (∃ v, i = .popcnt v ∧ t = respond 1#1 (zext32 (popcount v)) (drivePopcount v (popcount v) s))
    ∨ (∃ v, i = .msb v ∧ t = respond 1#1 (zext32 (msb v)) (driveMsb v (msb v) s))
    ∨ (∃ d, i = .enc d ∧ t = respond 1#1 (zext32 (enc d)) (driveEncoder d (enc d) s))
    ∨ (∃ d c v, i = .dec d c ∧ correct d c = some v
        ∧ t = respond 1#1 (zext32 v) (driveDecoder d c 1#1 v s))
    ∨ (∃ d c, i = .dec d c ∧ correct d c = none
        ∧ t = respond 0#1 (zext32 (failData d c s)) (driveDecoder d c 0#1 (failData d c s) s)) := by
  cases i with
  | popcnt v => exact .inl ⟨v, rfl, by simpa [exec_popcnt] using h.symm⟩
  | msb v => exact .inr (.inl ⟨v, rfl, by simpa [exec_msb] using h.symm⟩)
  | enc d => exact .inr (.inr (.inl ⟨d, rfl, by simpa [exec_enc] using h.symm⟩))
  | dec d c =>
    cases hc : correct d c with
    | some v =>
      rw [exec_dec_of_some hc] at h
      exact .inr (.inr (.inr (.inl ⟨d, c, v, rfl, hc, by simpa using h.symm⟩)))
    | none =>
      rw [exec_dec_of_none hc] at h
      exact .inr (.inr (.inr (.inr ⟨d, c, rfl, hc, by simpa using h.symm⟩)))

/-- A step on a freshly presented request runs the operation that the request decodes to (rule R17). -/
theorem step_presentRequest (r : Request) (s : State) :
    step (presentRequest r s) = exec (decode r) (presentRequest r s) := by
  simp only [step, requestOf_presentRequest]

/-- The request ports are the host's: no operation moves them (rule R189). -/
theorem requestOf_of_exec {i : Instr} {s t : State} (h : exec i s = .next t) : requestOf t = requestOf s := by
  obtain ⟨v, -, rfl⟩ | ⟨v, -, rfl⟩ | ⟨d, -, rfl⟩ | ⟨d, c, v, -, -, rfl⟩ | ⟨d, c, -, -, rfl⟩ := exec_next_cases h <;>
    simp [requestOf]

end Sys2Proof.Machine
end

