-- ==== Sys2Proof/Laws/PerInstr.lean ====
section
/-! SUPPORT. A fact about every operation as syntax, one lemma per constructor: its request has the match value of its row of
spec/opcode_table.json under the row's mask (rule R72). -/

namespace Sys2Proof.Laws.TableMatch

/-- The `match` value of the operation's row in spec/opcode_table.json. -/
def rowMatch : Instr → Request
  | .popcnt _ => 0x00000000000#42
  | .msb _ => 0x10000000000#42
  | .enc _ => 0x20000000000#42
  | .dec _ _ => 0x30000000000#42

/-- The operation's request matches its own row: masked with the row's `mask` it is the row's `match`. -/
def Statement (i : Instr) : Prop := encode i &&& 0x30000000000#42 = rowMatch i

/-- Under the table's mask only the select is left of a bundle. -/
theorem bundle_masked (sel : BitVec 2) (b : CodeWord) (a : Word) :
    bundle sel b a &&& 0x30000000000#42 = bundle sel 0#8 0#32 := by
  have mask : (0x30000000000#42 : Request) = bundle 0b11#2 0#8 0#32 := by decide
  ext i hi
  simp only [mask, bundle, ← BitVec.getLsbD_eq_getElem, BitVec.getLsbD_and, BitVec.getLsbD_append]
  by_cases h : i < 32
  · simp [h]
  · by_cases h' : i - 32 < 8
    · simp [h, h']
    · have one : ∀ k < 2, (0b11#2 : BitVec 2).getLsbD k = true := by decide
      rw [if_neg h, if_neg h', if_neg h, if_neg h', if_neg h, if_neg h', one _ (by omega), Bool.and_true]

theorem popcnt (v : Word) : Statement (.popcnt v) := (bundle_masked _ _ _).trans rfl

theorem msb (v : Word) : Statement (.msb v) := (bundle_masked _ _ _).trans rfl

theorem enc (d : DataWord) : Statement (.enc d) := (bundle_masked _ _ _).trans rfl

theorem dec (d : DataWord) (c : CodeWord) : Statement (.dec d c) := (bundle_masked _ _ _).trans rfl

end Sys2Proof.Laws.TableMatch
end

