-- ==== Sys2Proof/Tests/Slice0.lean ====
section
/-! SUPPORT. Small checks against the vectors of spec/95_test_vectors.md, the refusals of the well-formedness checks, and for every
obligation with a hypothesis a concrete state and operands that meet it (named witness_…). -/

namespace Sys2Proof.Tests

open Sys2Proof.Machine Sys2Proof.Safety

/-! ### Decoding, by words written out bit by bit from rule R69 -/

/-- S2: sel 00, b 00000000, a 1110 then 28 zeros. -/
theorem test_decode_popcnt : decode 0b00_00000000_11100000000000000000000000000000#42 = .popcnt 0xE0000000#32 := by decide

/-- S6: sel 01, b 00000000, a with bit 29. -/
theorem test_decode_msb : decode 0b01_00000000_00100000000000000000000000000000#42 = .msb 0x20000000#32 := by decide

/-- S9: sel 10, b 00000000, d 0000000100000001. -/
theorem test_decode_enc : decode 0b10_00000000_0000000000000000_0000000100000001#42 = .enc 0x0101#16 := by decide

/-- S11: sel 11, c 00101101, d 0000000101000001. -/
theorem test_decode_dec : decode 0b11_00101101_0000000000000000_0000000101000001#42 = .dec 0x0141#16 0x2D#8 := by decide

/-- The ignored-field vectors of sections 2.1, 3.1 and 3.6: ones in unused fields change no operation (rule R82). -/
theorem test_decode_ignored_fields :
    decode 0x0FF00000007#42 = .popcnt 0x7#32 ∧ decode 0x2FFFFFF0101#42 = .enc 0x0101#16
      ∧ decode 0x32DFFFF0141#42 = .dec 0x0141#16 0x2D#8 := by decide

/-- The opcode table's rows, with every unfixed bit 0 (rule R72). -/
theorem test_decodeTableWord :
    decodeTableWord 48 0x00000000000 = some (.popcnt 0#32) ∧ decodeTableWord 48 0x10000000000 = some (.msb 0#32)
      ∧ decodeTableWord 48 0x20000000000 = some (.enc 0#16) ∧ decodeTableWord 48 0x30000000000 = some (.dec 0#16 0#8) := by
  decide

/-! ### What the well-formedness checks refuse -/

/-- A number with a bit above `req[41]` is no request (rule R69). -/
theorem test_refuses_wide_number :
    decodeNumber 0x40000000000 = .error .widerThanRequest ∧ decodeTableWord 48 0x40000000000 = none := ⟨rfl, by decide⟩

/-- `b` is unwritten for POPCNT and MSB (rule R85). -/
theorem test_refuses_popcnt_b : canonicalRequest 0x00100000007#42 = false := by decide

theorem test_refuses_msb_b : canonicalRequest 0x18000000008#42 = false := by decide

/-- `b` and `a[31:16]` are unwritten for ENC (rule R85). -/
theorem test_refuses_enc_b : canonicalRequest 0x20100000101#42 = false := by decide

theorem test_refuses_enc_high_a : canonicalRequest 0x20000010101#42 = false := by decide

/-- `a[31:16]` is unwritten for DEC (rule R85). -/
theorem test_refuses_dec_high_a : canonicalRequest 0x32D80000141#42 = false := by decide

/-! ### One step on one request -/

/-- The response to a request presented to a block at reset. -/
def responseTo (r : Request) : Option Response :=
  match answer r State.reset with
  | .next t => some (responseOf t)
  | _ => none

/-- The `ok` and `dec_ok` after a request presented to a block at reset: a failing DEC's data is not compared (rule R141). -/
def okAfter (r : Request) : Option (Bit × Bit) :=
  match answer r State.reset with
  | .next t => some (t.ok, t.decOk)
  | _ => none

/-- V-POP-05 (all ones) and V-POP-10. -/
theorem test_popcnt_vectors :
    responseTo 0x000FFFFFFFF#42 = some 0x100000020#33 ∧ responseTo 0x00012345678#42 = some 0x10000000D#33 := by decide

/-- S2: the place of the ones does not matter. -/
theorem test_popcnt_high_bits : responseTo 0x000E0000000#42 = some 0x100000003#33 := by decide

/-- S3 (zero is no error) and V-MSB-18 (the largest result). -/
theorem test_msb_ends :
    responseTo 0x10000000000#42 = some 0x100000000#33 ∧ responseTo 0x100FFFFFFFF#42 = some 0x100000020#33 := by decide

/-- V-MSB-15: only the highest one matters. -/
theorem test_msb_two_ones : responseTo 0x10020000001#42 = some 0x10000001E#33 := by decide

/-- S7 and S8. -/
theorem test_enc_source_vectors :
    responseTo 0x20000000129#42 = some 0x100000028#33 ∧ responseTo 0x20000000183#42 = some 0x100000005#33 := by decide

/-- V-ENC-28: bits 15 to 9 are ignored. -/
theorem test_enc_ignores_high_bits : responseTo 0x2000000FFFF#42 = some 0x10000007F#33 := by decide

/-- S12 (code-confined), V-DEC-40 (repaired with bit 15 passing through) and V-DEC-04 (the bit-6 blind spot). -/
theorem test_dec_accepts :
    responseTo 0x30D00000101#42 = some 0x100000101#33 ∧ responseTo 0x32D00008141#42 = some 0x100008101#33
      ∧ responseTo 0x36D00000101#42 = some 0x100000101#33 := by decide

/-- S13, S14 and V-DEC-07 fail. -/
theorem test_dec_rejects :
    okAfter 0x32D000001A1#42 = some (0#1, 0#1) ∧ okAfter 0x30C00000101#42 = some (0#1, 0#1)
      ∧ okAfter 0x32C00000101#42 = some (0#1, 0#1) := by decide

/-! ### Witnesses for the hypotheses of the obligations -/

/-- A block that has answered `POPCNT 7` and holds a pair that DEC rejected (S13). -/
def usedBlock : State :=
  { State.reset with
    a := 7#32, y := 3#32, pcIn := 7#32, pcOut := 3#6, decData := 0x01A1#16, decCode := 0x2D#8, decOk := 0#1,
    decCorrected := 0xBEEF#16, requestCount := 5 }

theorem witness_DecodeEncodeInverse :
    (Instr.popcnt 7#32).wellFormed = true ∧ (Instr.msb 7#32).wellFormed = true ∧ (Instr.enc 7#16).wellFormed = true
      ∧ (Instr.dec 7#16 7#8).wellFormed = true := by decide

/-- A word in the assembler's form for each of the four operations. -/
theorem witness_EncodeDecodeCanonical :
    canonicalRequest 0x000FFFFFFFF#42 = true ∧ canonicalRequest 0x100FFFFFFFF#42 = true
      ∧ canonicalRequest 0x2000000FFFF#42 = true ∧ canonicalRequest 0x3FF0000FFFF#42 = true := by decide

/-- A word for each row, so that no side of the four equivalences is empty. -/
theorem witness_OpcodeMapSelects :
    0x0FFFFFFFFFF#42 &&& 0x30000000000#42 = 0x00000000000#42 ∧ 0x1FFFFFFFFFF#42 &&& 0x30000000000#42 = 0x10000000000#42
      ∧ 0x2FFFFFFFFFF#42 &&& 0x30000000000#42 = 0x20000000000#42
      ∧ 0x3FFFFFFFFFF#42 &&& 0x30000000000#42 = 0x30000000000#42 := by decide

theorem witness_WrapperRoutesToUnits :
    (0x0101#16).extractLsb' 0 9 = (0xFF01#16).extractLsb' 0 9 ∧ (0x2D#8).extractLsb' 0 7 = (0xAD#8).extractLsb' 0 7 := by
  decide

/-- Both selects of the first clause, operands that differ in every ignored bit, and a DEC that succeeds. -/
theorem witness_IgnoredRequestBits :
    ((0b00#2 : BitVec 2) = 0b00#2 ∧ (0b01#2 : BitVec 2) = 0b01#2)
      ∧ (0x00000141#32).extractLsb' 0 9 = (0xFFFFFF41#32).extractLsb' 0 9
      ∧ (0x2D#8).extractLsb' 0 7 = (0xAD#8).extractLsb' 0 7
      ∧ okAfter (0b11#2 ++ 0x2D#8 ++ 0x00000141#32) = some (1#1, 1#1) := by decide

theorem witness_StepRunsDecoded : decode (requestOf State.reset) = .popcnt 0#32 ∧ 0x3FFFFFFFFFF < 2 ^ 42 := by decide

/-- Two blocks with the same request and different ports, both answering. -/
theorem witness_ResponseIgnoresHistory :
    ∃ s s' t t' : State, s ≠ s' ∧ requestOf s = requestOf s' ∧ step s = .next t ∧ step s' = .next t' :=
  ⟨usedBlock, { usedBlock with msbIn := 1#32 }, _, _, by decide, rfl, rfl, rfl⟩

/-- A held request that succeeds and one that fails (S13). -/
theorem witness_HeldInputsIdempotent :
    (∃ s t : State, step s = .next t ∧ t.ok = 1#1) ∧ ∃ s t : State, step s = .next t ∧ t.ok = 0#1 :=
  ⟨⟨usedBlock, _, rfl, rfl⟩, presentRequest 0x32D000001A1#42 usedBlock, _,
    exec_dec_of_none (d := 0x01A1#16) (c := 0x2D#8) (by decide) _, rfl⟩

/-- Each operation answers, and each guard on the constructor is met by another operation. -/
theorem witness_ExecFrame :
    (∃ t, exec (.popcnt 7#32) usedBlock = .next t ∧ t.ok = 1#1) ∧ (∃ t, exec (.msb 7#32) usedBlock = .next t)
      ∧ (∃ t, exec (.enc 7#16) usedBlock = .next t) ∧ (∃ t, exec (.dec 0#16 0#8) usedBlock = .next t)
      ∧ (∀ v, Instr.msb 7#32 ≠ .popcnt v) ∧ (∀ v, Instr.popcnt 7#32 ≠ .msb v) ∧ (∀ d, Instr.popcnt 7#32 ≠ .enc d)
      ∧ (∀ d c, Instr.popcnt 7#32 ≠ .dec d c) := by
  refine ⟨⟨_, rfl, rfl⟩, ⟨_, rfl⟩, ⟨_, rfl⟩, ⟨_, exec_dec_of_some (v := 0#16) (by decide) _⟩, ?_, ?_, ?_, ?_⟩ <;>
    intros <;> simp

/-- A block whose units agree with their rules while another request is presented (S6) and not yet answered. -/
theorem witness_StepKeepsPortsConsistent :
    UnitsConsistent usedBlock ∧ UnitsConsistent (presentRequest 0x10020000000#42 usedBlock)
      ∧ (∃ t, step usedBlock = .next t) ∧ ∃ t, step (presentRequest 0x10020000000#42 usedBlock) = .next t := by
  have fails : correct 0x01A1#16 0x2D#8 = none := by decide
  have units : UnitsConsistent usedBlock :=
    ⟨by decide, by decide, by decide, by simp [DecoderConsistent, usedBlock, State.reset, fails]⟩
  exact ⟨units, units, ⟨_, rfl⟩, _, rfl⟩

theorem witness_ResultZeroExtended :
    (∃ t, exec (.popcnt 7#32) usedBlock = .next t) ∧ (∃ t, exec (.msb 7#32) usedBlock = .next t)
      ∧ (∃ t, exec (.enc 7#16) usedBlock = .next t) ∧ ∃ t, exec (.dec 0#16 0#8) usedBlock = .next t :=
  ⟨⟨_, rfl⟩, ⟨_, rfl⟩, ⟨_, rfl⟩, ⟨_, exec_dec_of_some (v := 0#16) (by decide) _⟩⟩

theorem witness_PopcntAlgebra :
    0x0000FFFF#32 &&& 0xFFFF0000#32 = 0#32 ∧ popcount 0x80000000#32 = 1#6 ∧ popcount 0#32 = 0#6 := by decide

theorem witness_MsbAlgebra : 31 < 32 ∧ (0x7FFFFFFF#32).toNat ≤ (0x80000000#32).toNat ∧ msb 0#32 = 0#6 := by decide

/-- The greatest code of the image is met (payload 0x1FF). -/
theorem witness_EncImageIsSelfConsistentCodes : (0x7F#8).getLsbD 7 = false ∧ selfConsistent 0x7F#8 = true := by decide

/-- V-DEC-04: only code bit 6 differs. -/
theorem witness_DecNoMismatch : ∀ j < 6, (0x6D#8).getLsbD j = (enc 0x0101#16).getLsbD j := by decide

/-- V-DEC-12 for the success clause, V-DEC-30 for the failure clause. -/
theorem witness_DecLoneRowMismatch :
    (total 0x0101#16 0x0D#8 = 1 ∧ colSyn 0x0101#16 0x0D#8 = 0#3
      ∧ (0x0D#8).getLsbD 6 = (((0x0D#8).getLsbD 2 ^^ (0x0D#8).getLsbD 1) ^^ (0x0D#8).getLsbD 0))
    ∧ (total 0x0141#16 0x2C#8 = 1 ∧ colSyn 0x0141#16 0x2C#8 = 0#3
      ∧ (0x2C#8).getLsbD 6 ≠ (((0x2C#8).getLsbD 2 ^^ (0x2C#8).getLsbD 1) ^^ (0x2C#8).getLsbD 0)) := by decide

/-- V-DEC-14 (cell index 0) and V-DEC-22 (cell index 8). -/
theorem witness_DecRepairsCell :
    (rowSyn 0x0100#16 0x2D#8 = 1#3 <<< 0 ∧ colSyn 0x0100#16 0x2D#8 = 1#3 <<< 0 ∧ selfConsistent 0x2D#8 = true)
    ∧ (rowSyn 0x0001#16 0x2D#8 = 1#3 <<< 2 ∧ colSyn 0x0001#16 0x2D#8 = 1#3 <<< 2) := by decide

/-- V-DEC-32 (two row mismatches) and V-DEC-27 (one and one, not self-consistent). -/
theorem witness_DecOtherwiseUncorrectable :
    (2 ≤ total 0x0140#16 0x2D#8
      ∧ ¬(fieldCount (colSyn 0x0140#16 0x2D#8) = 1 ∧ fieldCount (rowSyn 0x0140#16 0x2D#8) = 1
        ∧ selfConsistent 0x2D#8 = true))
    ∧ (2 ≤ total 0x0101#16 0x0C#8
      ∧ ¬(fieldCount (colSyn 0x0101#16 0x0C#8) = 1 ∧ fieldCount (rowSyn 0x0101#16 0x0C#8) = 1
        ∧ selfConsistent 0x0C#8 = true)) := by decide

/-- S13. -/
theorem witness_DecFailureValueOpen : decClass 0x01A1#16 0x2D#8 = .uncorrectable := by decide

/-- V-DEC-07. -/
theorem witness_ArmTwoNeverSucceeds : total 0x0101#16 0x2C#8 = 1 ∧ colSyn 0x0101#16 0x2C#8 ≠ 0#3 := by decide

/-- V-DEC-04. -/
theorem witness_DecBitSixBlindSpot : syndrome 0x0101#16 0x6D#8 = 0x40#7 := by decide

/-- The index ranges of the flip statements: payload bits to 8, row-parity bits 3 to 5, column-parity bits to 2, the 16 protected
bits, data bits 9 to 15. -/
theorem witness_flip_ranges :
    (∃ p, p < 9) ∧ (∃ j, 3 ≤ j ∧ j ≤ 5) ∧ (∃ j, j < 3) ∧ (∃ p q, p < 16 ∧ q < 16 ∧ p ≠ q) ∧ (∃ p, 9 ≤ p ∧ p ≤ 15) :=
  ⟨⟨8, by decide⟩, ⟨5, by decide⟩, ⟨2, by decide⟩, ⟨15, 8, by decide⟩, ⟨15, by decide⟩⟩

/-- V-DEC-03 (accepted as it is) and V-DEC-25 (accepted as a repaired word) meet the two sides of the characterisation. -/
theorem witness_DecAcceptsExactlyNearPairs :
    syndrome 0x01FF#16 0x7F#8 = 0#7 ∧ (0x0000#16 = 0x0001#16 ^^^ (1#16 <<< 0) ∧ syndrome 0x0001#16 0x49#8 = 0#7) := by
  decide

/-- An accepted and a repaired word: V-DEC-39 and V-DEC-40, each with bit 15 set. -/
theorem witness_DecSuccessPassesWordThrough :
    okAfter 0x32D00008101#42 = some (1#1, 1#1) ∧ decClass 0x8101#16 0x2D#8 ≠ .corrected
      ∧ okAfter 0x32D00008141#42 = some (1#1, 1#1) ∧ decClass 0x8141#16 0x2D#8 = .corrected := by decide

theorem witness_DecIgnoresInputBits : 0xFE00#16 &&& 0x01FF#16 = 0#16 := by decide

/-- S11. -/
theorem witness_FlipIndexSimplifies : decClass 0x0141#16 0x2D#8 = .corrected := by decide

/-- Two runs of the same two requests in either order. -/
theorem witness_RunOrderIrrelevant : [0x20000000101#42, 0x32D00000141#42].Perm [0x32D00000141#42, 0x20000000101#42] :=
  .swap _ _ _

end Sys2Proof.Tests
end

section
/-! PROOFS. The visible part of a response as a function of the operation alone, and what the host puts on the request ports
(spec/00_scope.md). -/

namespace Sys2Proof.Machine

open Sys2Proof.Safety

@[simp] theorem responseOf_respond (k : Bit) (w : Word) (s : State) : responseOf (respond k w s) = k ++ w := rfl

/-- `ok` stands above `y` in the response bundle (rule R70). -/
@[simp] theorem rspOk_append (k : Bit) (w : Word) : rspOk (k ++ w) = k :=
  BitVec.extractLsb'_append_eq_left

theorem visible_of_ok (w : Word) : visible (1#1 ++ w) = 1#1 ++ w := by
  simp [visible]

/-- Of a failing response nothing is left but zeros: the open value of rule R141 stands in the masked low half of `y`. -/
theorem visible_of_failure (v : DataWord) : visible (0#1 ++ zext32 v) = 0#33 := by
  rw [visible, rspOk_append, if_neg (by decide)]
  have mask : (0x0FFFF0000#33 : Response) = 0#1 ++ (0xFFFF#16 ++ 0#16) := by decide
  have operand : zext32 v = 0#16 ++ v := by simp [zext32, BitVec.setWidth_eq_append]
  rw [mask, operand, BitVec.and_append, BitVec.and_append]
  simp

/-- The visible response of an operation, of its operands alone (rules R73, R141): no state is an argument. -/
def visibleAnswer : Instr → Response
  | .popcnt v => 1#1 ++ zext32 (popcount v)
  | .msb v => 1#1 ++ zext32 (msb v)
  | .enc d => 1#1 ++ zext32 (enc d)
  | .dec d c =>
    match correct d c with
    | some v => 1#1 ++ zext32 v
    | none => 0#33

/-- Whatever the ports held, an operation's visible response is the one its operands fix (rules R16, R29). -/
theorem visible_responseOf_exec {i : Instr} {s t : State} (h : exec i s = .next t) :
    visible (responseOf t) = visibleAnswer i := by
  obtain ⟨v, rfl, rfl⟩ | ⟨v, rfl, rfl⟩ | ⟨d, rfl, rfl⟩ | ⟨d, c, v, rfl, hc, rfl⟩ | ⟨d, c, rfl, hc, rfl⟩ :=
    exec_next_cases h
  case inl | inr.inl | inr.inr.inl => exact visible_of_ok _
  · simp only [visibleAnswer, hc, responseOf_respond, visible_of_ok]
  · simp only [visibleAnswer, hc, responseOf_respond, visible_of_failure]

/-- A number that fits in a bundle is its own table word, the table's 48 bits being more than the bundle's 42 (rules R69, R72). -/
theorem tableWord_of_lt {w : Nat} (h : w < 2 ^ 42) : tableWord 48 w = w :=
  Nat.mod_eq_of_lt (by omega)

theorem requestOf_withFetchWord {w : Nat} (h : w < 2 ^ 42) (s : State) :
    requestOf (s.withFetchWord 48 w) = BitVec.ofNat 42 w := by
  rw [State.withFetchWord, requestOf_presentRequest, tableWord_of_lt h]

/-- Settles O9: both responses have the visible part that the request's operation fixes. -/
theorem responseIgnoresHistory : Obligations.ResponseIgnoresHistory := by
  intro s s' t t' sameRequest answered answered'
  calc visible (responseOf t)
      = visibleAnswer (decode (requestOf s)) := visible_responseOf_exec answered
    _ = visibleAnswer (decode (requestOf s')) := by rw [sameRequest]
    _ = visible (responseOf t') := (visible_responseOf_exec answered').symm

/-- Settles O7: `step` is `exec` after `decode`, and both ways for the host to present a request place its fields on the ports. -/
theorem stepRunsDecoded : Obligations.StepRunsDecoded := by
  refine ⟨fun s i decoded => ?_, fun s r => requestOf_presentRequest r s, fun s w h => requestOf_withFetchWord h s⟩
  rw [step, decoded]

end Sys2Proof.Machine
end

section
/-! PROOFS. What an operation writes and leaves unchanged, and the agreement of the output ports with their rules
(spec/10_state.md). -/

namespace Sys2Proof.Machine

open Sys2Proof.Safety

/-! ### The units' ports -/

theorem decoderConsistent_of_some {s : State} {v : DataWord} (h : correct s.decData s.decCode = some v)
    (ok : s.decOk = 1#1) (corrected : s.decCorrected = v) : DecoderConsistent s := by
  rw [DecoderConsistent, h]
  exact ⟨ok, corrected⟩

theorem decoderConsistent_of_none {s : State} (h : correct s.decData s.decCode = none) (ok : s.decOk = 0#1) :
    DecoderConsistent s := by
  rw [DecoderConsistent, h]
  exact ok

/-- The host drives the wrapper's inputs only (rule R31). -/
@[simp] theorem unitsConsistent_presentRequest (r : Request) (s : State) :
    UnitsConsistent (presentRequest r s) ↔ UnitsConsistent s := Iff.rfl

/-- An operation that drives its unit by the unit's rule keeps all four units at their rules (rules R32, R33). -/
theorem unitsConsistent_of_exec {i : Instr} {s t : State} (units : UnitsConsistent s) (h : exec i s = .next t) :
    UnitsConsistent t := by
  obtain ⟨hpc, hmsb, henc, hdec⟩ := units
  obtain ⟨v, -, rfl⟩ | ⟨v, -, rfl⟩ | ⟨d, -, rfl⟩ | ⟨d, c, v, -, hc, rfl⟩ | ⟨d, c, -, hc, rfl⟩ := exec_next_cases h
  · exact ⟨rfl, hmsb, henc, hdec⟩
  · exact ⟨hpc, rfl, henc, hdec⟩
  · exact ⟨hpc, hmsb, rfl, hdec⟩
  · exact ⟨hpc, hmsb, henc, decoderConsistent_of_some hc rfl rfl⟩
  · exact ⟨hpc, hmsb, henc, decoderConsistent_of_none hc rfl⟩

/-! ### The wrapper's response -/

/-- The high half of `y` is 0 when a 16-bit value stands in it (rule R79). -/
theorem zext32_dataWord_high (v : DataWord) : (zext32 v).extractLsb' 16 16 = 0#16 := by
  ext i hi
  simp [zext32]

theorem answers_dec_of_some {d : DataWord} {c : CodeWord} {v : DataWord} (h : correct d c = some v) :
    Answers (.dec d c) 1#1 (zext32 v) := by
  simp only [Answers, h, and_self]

/-- Whatever 16-bit value a failing DEC shows, it is a right answer (rule R141). -/
theorem answers_dec_of_none {d : DataWord} {c : CodeWord} (h : correct d c = none) (v : DataWord) :
    Answers (.dec d c) 0#1 (zext32 v) := by
  simp only [Answers, h, zext32_dataWord_high, and_self]

/-- The response an operation leaves on `ok` and `y` is its own result (rules R71, R73). -/
theorem answers_of_exec {i : Instr} {s t : State} (h : exec i s = .next t) : Answers i t.ok t.y := by
  obtain ⟨v, rfl, rfl⟩ | ⟨v, rfl, rfl⟩ | ⟨d, rfl, rfl⟩ | ⟨d, c, v, rfl, hc, rfl⟩ | ⟨d, c, rfl, hc, rfl⟩ :=
    exec_next_cases h
  case inl | inr.inl | inr.inr.inl => exact ⟨rfl, rfl⟩
  · exact answers_dec_of_some hc
  · exact answers_dec_of_none hc _

/-! ### The invariant -/

/-- A step answers the request on the ports and leaves it there, so the response still fits it afterwards (rules R33, R73). -/
theorem portsConsistent_of_step {s t : State} (units : UnitsConsistent s) (h : step s = .next t) :
    PortsConsistent t := by
  refine ⟨unitsConsistent_of_exec units h, ?_⟩
  rw [requestOf_of_exec h]
  exact answers_of_exec h

/-- Settles O12: a step keeps the units at their rules and answers its request, and presenting a request moves no unit's port. -/
theorem stepKeepsPortsConsistent : Obligations.StepKeepsPortsConsistent := by
  intro s t units
  exact ⟨portsConsistent_of_step units,
    fun r => portsConsistent_of_step ((unitsConsistent_presentRequest r s).mpr units)⟩

/-- Settles O11: each of the five ways an operation can end drives its own unit and the response, so the guard that excludes
that unit is the only clause it breaks. -/
theorem execFrame : Obligations.ExecFrame := by
  intro i s t h
  obtain ⟨v, rfl, rfl⟩ | ⟨v, rfl, rfl⟩ | ⟨d, rfl, rfl⟩ | ⟨d, c, v, rfl, -, rfl⟩ | ⟨d, c, rfl, -, rfl⟩ :=
    exec_next_cases h <;>
    simp

/-! ### Reset -/

/-- Settles O14: the zeros that the model chose for the inputs at reset (log entry 3). -/
theorem resetInputsZero : Obligations.ResetInputsZero :=
  ⟨by decide, rfl, rfl, rfl, rfl, rfl⟩

/-- The zeros on the wrapper's inputs at reset ask for `POPCNT 0` (log entries 3 and 4). -/
theorem decode_requestOf_reset : decode (requestOf State.reset) = .popcnt 0#32 := by decide

theorem unitsConsistent_reset : UnitsConsistent State.reset :=
  ⟨by decide, by decide, by decide, decoderConsistent_of_some (v := 0#16) (by decide) rfl rfl⟩

/-- Settles O13: the output ports at reset are what the rules give for the zeros of log entry 3. -/
theorem resetPortsConsistent : Obligations.ResetPortsConsistent := by
  refine ⟨unitsConsistent_reset, ?_⟩
  rw [decode_requestOf_reset]
  exact ⟨rfl, by decide⟩

end Sys2Proof.Machine
end

section
/-! PROOFS. What answering a held request again does, and the responses of a run of requests (spec/00_scope.md). -/

namespace Sys2Proof.Machine

open Sys2Proof.Safety

/-! ### The held request -/

/-- An operation run on its own result gives that result again: it reads its operands and the number of the request, and
writes neither (rules R44, R162; log entry 1). -/
theorem exec_of_exec {i : Instr} {s t : State} (h : exec i s = .next t) : exec i t = .next t := by
  obtain ⟨v, rfl, rfl⟩ | ⟨v, rfl, rfl⟩ | ⟨d, rfl, rfl⟩ | ⟨d, c, v, rfl, hc, rfl⟩ | ⟨d, c, rfl, hc, rfl⟩ :=
    exec_next_cases h
  case inl | inr.inl | inr.inr.inl => rfl
  · rw [exec_dec_of_some hc]
    rfl
  · rw [exec_dec_of_none hc, failData_respond, failData_driveDecoder]
    rfl

/-- Settles O10: a step leaves the request on the ports, so the next step runs the same operation on its own result. -/
theorem heldInputsIdempotent : Obligations.HeldInputsIdempotent := by
  intro s t h
  rw [step, requestOf_of_exec h]
  exact exec_of_exec h

/-! ### One request of a run -/

/-- No operation stops the machine (rules R81, R160). -/
theorem exec_completes (i : Instr) (s : State) : ∃ t, exec i s = .next t := by
  cases i with
  | popcnt v => exact ⟨_, exec_popcnt v s⟩
  | msb v => exact ⟨_, exec_msb v s⟩
  | enc d => exact ⟨_, exec_enc d s⟩
  | dec d c =>
    cases hc : correct d c with
    | some v => exact ⟨_, exec_dec_of_some hc s⟩
    | none => exact ⟨_, exec_dec_of_none hc s⟩

/-- `rsp` is what a block shows for `r`, whatever its ports held when its operation ran (rules R29, R47). -/
def RespondsTo (r : Request) (rsp : Response) : Prop :=
  ∃ s t : State, exec (decode r) s = .next t ∧ rsp = responseOf t

theorem answer_completes (r : Request) (s : State) : ∃ t, answer r s = .next t ∧ RespondsTo r (responseOf t) := by
  obtain ⟨t, ht⟩ := exec_completes (decode r) (presentRequest r s)
  exact ⟨t, (step_presentRequest r s).trans ht, _, t, ht, rfl⟩

@[simp] theorem rspOk_responseOf (t : State) : rspOk (responseOf t) = t.ok :=
  rspOk_append t.ok t.y

/-- `y` is the low part of the response bundle (rule R70). -/
@[simp] theorem rspY_responseOf (t : State) : rspY (responseOf t) = t.y :=
  BitVec.extractLsb'_append_eq_right

theorem answers_of_respondsTo {r : Request} {rsp : Response} (h : RespondsTo r rsp) :
    Answers (decode r) (rspOk rsp) (rspY rsp) := by
  obtain ⟨s, t, ht, rfl⟩ := h
  rw [rspOk_responseOf, rspY_responseOf]
  exact answers_of_exec ht

theorem visible_of_respondsTo {r : Request} {rsp : Response} (h : RespondsTo r rsp) :
    visible rsp = visibleAnswer (decode r) := by
  obtain ⟨s, t, ht, rfl⟩ := h
  exact visible_responseOf_exec ht

/-! ### Runs -/

theorem runRequests_nil (s : State) : runRequests [] s = .next (s, []) := rfl

/-- A run whose first request is answered goes on from the state of that answer (rule R194). -/
theorem runRequests_cons {r : Request} {rs : List Request} {s t u : State} {out : List Response}
    (first : answer r s = .next t) (rest : runRequests rs t = .next (u, out)) :
    runRequests (r :: rs) s = .next (u, responseOf t :: out) := by
  simp only [runRequests, first, rest]

/-- A run completes with one response per request, in order, each of them a response to its own request (rules R47, R194). -/
theorem runRequests_completes (rs : List Request) (s : State) :
    ∃ t out, runRequests rs s = .next (t, out) ∧ List.Forall₂ RespondsTo rs out := by
  induction rs generalizing s with
  | nil => exact ⟨s, [], runRequests_nil s, .nil⟩
  | cons r rs ih =>
    obtain ⟨t, first, responds⟩ := answer_completes r s
    obtain ⟨u, out, rest, respondAll⟩ := ih t
    exact ⟨u, responseOf t :: out, runRequests_cons first rest, .cons responds respondAll⟩

/-- Settles O46: a response to a request is the answer of that request's operation. -/
theorem runAnswersEachRequest : Obligations.RunAnswersEachRequest := by
  intro rs s
  obtain ⟨t, out, run, respondAll⟩ := runRequests_completes rs s
  exact ⟨t, out, run, respondAll.imp fun _ _ => answers_of_respondsTo⟩

/-- Each pair of a request and its visible response is fixed by the request alone (rule R46). -/
theorem zip_visible_of_respondsTo {rs : List Request} {out : List Response} (h : List.Forall₂ RespondsTo rs out) :
    rs.zip (out.map visible) = rs.map fun r => (r, visibleAnswer (decode r)) := by
  induction h with
  | nil => rfl
  | cons responds _ ih => rw [List.map_cons, List.zip_cons_cons, List.map_cons, ih, visible_of_respondsTo responds]

/-- Settles O47: the pairs of a run are its list of requests mapped by one function, and mapping keeps a permutation. -/
theorem runOrderIrrelevant : Obligations.RunOrderIrrelevant := by
  intro rs rs' s s' reordered
  obtain ⟨t, out, run, respondAll⟩ := runRequests_completes rs s
  obtain ⟨t', out', run', respondAll'⟩ := runRequests_completes rs' s'
  refine ⟨t, out, t', out', run, run', ?_⟩
  rw [zip_visible_of_respondsTo respondAll, zip_visible_of_respondsTo respondAll']
  exact reordered.map _

end Sys2Proof.Machine
end

section
/-! PROOFS. The request bundle: fields under a mask, and the decoder against the encoder
(spec/30_encoding.md rules R69 to R72, R85). -/

namespace Sys2Proof

/-! ### Bundles under a mask -/

theorem bundle_and (sel sel' : BitVec 2) (b b' : CodeWord) (a a' : Word) :
    bundle sel b a &&& bundle sel' b' a' = bundle (sel &&& sel') (b &&& b') (a &&& a') :=
  BitVec.and_append.trans (congrArg (· ++ (a &&& a')) BitVec.and_append)

theorem bundle_inj {sel sel' : BitVec 2} {b b' : CodeWord} {a a' : Word} :
    bundle sel b a = bundle sel' b' a' ↔ sel = sel' ∧ b = b' ∧ a = a' := by
  constructor
  · intro h
    exact ⟨by simpa using congrArg requestSel h, by simpa using congrArg requestB h, by simpa using congrArg requestA h⟩
  · rintro ⟨rfl, rfl, rfl⟩
    rfl

/-- The table's mask keeps the select and nothing else, so a row's `match` tells exactly its own select (rule R72). -/
theorem masked_eq_bundle_iff (r : Request) (sel : BitVec 2) :
    r &&& 0x30000000000#42 = bundle sel 0#8 0#32 ↔ requestSel r = sel := by
  rw [← bundle_fields r, Laws.TableMatch.bundle_masked, bundle_inj, requestSel_bundle]
  simp

/-! ### Decoding what was encoded -/

/-- The encoder places every operand bit where the decoder reads it (rule R71). -/
theorem decode_encode (i : Instr) : decode (encode i) = i := by
  cases i with
  | popcnt v => exact decode_popcnt _ v
  | msb v => exact decode_msb _ v
  | enc d => exact (decode_enc _ _).trans (congrArg Instr.enc (dataOperand_setWidth d))
  | dec d c => exact (decode_dec c _).trans (congrArg (Instr.dec · c) (dataOperand_setWidth d))

/-- Settles O1: the round trip needs no hypothesis, every operation being well formed. -/
theorem decodeEncodeInverse : Obligations.DecodeEncodeInverse :=
  fun i _ => decode_encode i

/-! ### Encoding what was decoded -/

/-- A word without a high half is its own low half, zero-extended. -/
theorem setWidth_dataOperand_of_masked {a : Word} (h : a &&& 0xFFFF0000#32 = 0#32) : (dataOperand a).setWidth 32 = a := by
  have maskBit : ∀ k < 32, (0xFFFF0000#32 : Word).getLsbD k = decide (16 ≤ k) := by decide
  apply BitVec.eq_of_getLsbD_eq
  intro i hi
  by_cases low : i < 16
  · simp [dataOperand, hi, low]
  · have bitClear := congrArg (BitVec.getLsbD · i) h
    have highClear : a.getLsbD i = false := by simpa [maskBit i hi, Nat.le_of_not_lt low] using bitClear
    simp [dataOperand, low, highClear]

/-- `b` is unwritten for POPCNT and MSB, `b` and `a[31:16]` for ENC, `a[31:16]` for DEC (rule R85). -/
theorem unwrittenFields_bundle (sel : BitVec 2) (b : CodeWord) (a : Word) :
    unwrittenFields (bundle sel b a)
      = if sel = 0b10#2 then bundle 0b00#2 0xFF#8 0xFFFF0000#32
        else if sel = 0b11#2 then bundle 0b00#2 0x00#8 0xFFFF0000#32
        else bundle 0b00#2 0xFF#8 0x00000000#32 := by
  have encRow := masked_eq_bundle_iff (bundle sel b a) 0b10#2
  have decRow := masked_eq_bundle_iff (bundle sel b a) 0b11#2
  rw [requestSel_bundle] at encRow decRow
  exact ite_congr (propext encRow) (fun _ => rfl) fun _ => ite_congr (propext decRow) (fun _ => rfl) fun _ => rfl

theorem select_cases : ∀ sel : BitVec 2, sel = 0b00#2 ∨ sel = 0b01#2 ∨ sel = 0b10#2 ∨ sel = 0b11#2 := by decide

/-- In the assembler's form the fields that decoding drops are zeros, as the encoder writes them. -/
theorem encode_decode_bundle {sel : BitVec 2} {b : CodeWord} {a : Word} (h : canonicalRequest (bundle sel b a) = true) :
    encode (decode (bundle sel b a)) = bundle sel b a := by
  have unwritten : bundle sel b a &&& unwrittenFields (bundle sel b a) = bundle 0#2 0#8 0#32 := eq_of_beq h
  have keepsByte : b &&& 0xFF#8 = b := BitVec.and_allOnes
  rw [unwrittenFields_bundle] at unwritten
  obtain h | h | h | h := select_cases sel <;> subst h <;>
    simp only [BitVec.reduceEq, ↓reduceIte, bundle_and, BitVec.and_self, keepsByte, BitVec.and_zero, bundle_inj,
      and_true, true_and] at unwritten
  · rw [unwritten, decode_popcnt, encode]
  · rw [unwritten, decode_msb, encode]
  · rw [unwritten.1, decode_enc, encode, setWidth_dataOperand_of_masked unwritten.2]
  · rw [decode_dec, encode, setWidth_dataOperand_of_masked unwritten]

/-- Settles O2: a request is the bundle of its own fields. -/
theorem encodeDecodeCanonical : Obligations.EncodeDecodeCanonical := by
  intro r canonical
  rw [← bundle_fields r] at canonical ⊢
  exact encode_decode_bundle canonical

/-! ### The opcode map -/

/-- Encoding what was decoded keeps the select, whatever else of the bundle is dropped (rule R72). -/
@[simp] theorem requestSel_encode_decode (r : Request) : requestSel (encode (decode r)) = requestSel r := by
  obtain ⟨sel, dec⟩ | ⟨sel, dec⟩ | ⟨sel, dec⟩ | ⟨sel, dec⟩ := decode_cases r <;>
    rw [dec, sel, encode, requestSel_bundle]

/-- The four codes of `sel` name the four operations, in the source's section order (rule R72). -/
theorem requestSel_encode_eq_iff (i : Instr) :
    (requestSel (encode i) = 0b00#2 ↔ ∃ v, i = .popcnt v) ∧ (requestSel (encode i) = 0b01#2 ↔ ∃ v, i = .msb v)
      ∧ (requestSel (encode i) = 0b10#2 ↔ ∃ d, i = .enc d) ∧ (requestSel (encode i) = 0b11#2 ↔ ∃ d c, i = .dec d c) := by
  cases i <;> simp [encode]

/-- Settles O3: per row, the table's `match` is the bundle of the row's select, and the select is that of the decoded
operation. -/
theorem opcodeMapSelects : Obligations.OpcodeMapSelects := by
  intro r
  obtain ⟨popcnt, msb, enc, dec⟩ := requestSel_encode_eq_iff (decode r)
  rw [requestSel_encode_decode] at popcnt msb enc dec
  have row (sel : BitVec 2) := masked_eq_bundle_iff r sel
  exact ⟨⟨(row _).symm, (row _).trans popcnt⟩, ⟨(row _).symm, (row _).trans msb⟩, ⟨(row _).symm, (row _).trans enc⟩,
    ⟨(row _).symm, (row _).trans dec⟩⟩

/-- Settles O4: the words are closed, so the decoder runs on them. -/
theorem decodesWrittenWords : Obligations.DecodesWrittenWords := by
  unfold Obligations.DecodesWrittenWords
  decide

end Sys2Proof
end

section
/-! PROOFS. The encoder's linearity and its image (spec/30_encoding.md rules R65, R68;
spec/42_encoder.md rules R115 to R117). -/

namespace Sys2Proof.Machine

/-! ### Linearity -/

@[simp] theorem bit_xor {w : Nat} (x y : BitVec w) (i : Nat) : bit (x ^^^ y) i = bit x i ^^^ bit y i :=
  BitVec.extractLsb'_xor

@[simp] theorem payload_xor (d e : DataWord) : payload (d ^^^ e) = payload d ^^^ payload e :=
  BitVec.extractLsb'_xor

@[simp] theorem parity3_xor (b0 b1 b2 b0' b1' b2' : Bit) :
    parity3 (b0 ^^^ b0') (b1 ^^^ b1') (b2 ^^^ b2') = parity3 b0 b1 b2 ^^^ parity3 b0' b1' b2' := by
  simp only [parity3]
  ac_rfl

@[simp] theorem rowParity_xor (p q : Payload) (row : Nat) : rowParity (p ^^^ q) row = rowParity p row ^^^ rowParity q row := by
  simp [rowParity, matrixBit]

@[simp] theorem columnParity_xor (p q : Payload) (col : Nat) :
    columnParity (p ^^^ q) col = columnParity p col ^^^ columnParity q col := by
  simp [columnParity, matrixBit]

/-- Every code bit is an XOR of payload bits (rule R116). -/
theorem enc_xor (d e : DataWord) : enc (d ^^^ e) = enc d ^^^ enc e := by
  simp only [enc, payload_xor, rowParity_xor, columnParity_xor, parity3_xor]
  symm
  repeat refine BitVec.xor_append.trans (congrArg (· ++ _) ?_)
  rfl

/-- The code is a function of the payload alone (rule R115). -/
theorem enc_congr_payload {d e : DataWord} (h : payload d = payload e) : enc d = enc e := by
  rw [enc, h, enc]

/-! ### The parities of a code -/

/-- Bit 6 agrees with both fields and bit 7 is 0 (rules R65, R115). -/
theorem enc_parities (d : DataWord) :
    (enc d).getLsbD 6 = (((enc d).getLsbD 5 ^^ (enc d).getLsbD 4) ^^ (enc d).getLsbD 3)
      ∧ (enc d).getLsbD 6 = (((enc d).getLsbD 2 ^^ (enc d).getLsbD 1) ^^ (enc d).getLsbD 0)
      ∧ (enc d).getLsbD 7 = false :=
  encBits_parities _ _ _ _ _ _ _ _ _ (enc d) (enc_eq_encBits d)

theorem enc_toNat_lt (d : DataWord) : (enc d).toNat < 2 ^ 7 := by
  obtain ⟨-, -, bit7⟩ := enc_parities d
  exact BitVec.toNat_lt_of_msb_false bit7

/-- The row parities that bit 6 sums are sums of the payload bits, three each (rule R113). -/
theorem encBits_overallParity : ∀ p0 p1 p2 p3 p4 p5 p6 p7 p8 : Bool,
    (encBits p0 p1 p2 p3 p4 p5 p6 p7 p8).getLsbD 6
      = [p0, p1, p2, p3, p4, p5, p6, p7, p8].foldl (fun x p => x ^^ p) false := by
  decide

/-- Settles O22: the fields agree in every code, and bit 6 is computed from all nine payload bits. -/
theorem overallParityIdentity : Obligations.OverallParityIdentity := by
  intro d
  obtain ⟨rows, columns, -⟩ := enc_parities d
  refine ⟨rows, columns, ?_⟩
  rw [enc_eq_encBits]
  exact encBits_overallParity _ _ _ _ _ _ _ _ _

/-! ### The image -/

/-- The encoder's own codes pass the decoder's self-check (rule R117). -/
theorem selfConsistent_enc (d : DataWord) : selfConsistent (enc d) = true := by
  obtain ⟨rows, columns, -⟩ := enc_parities d
  rw [selfConsistent_eq, ← rows, ← columns]
  simp

/-- A payload for a code: `p[1]`, `p[2]`, `p[3]`, `p[6]` are the parity bits of their own column or row, and `p[0]` mends
column 0. -/
def payloadOf (c : CodeWord) : DataWord :=
  0#9 ++ bit c 5 ++ 0#2 ++ bit c 4 ++ bit c 2 ++ bit c 1 ++ parity3 (bit c 0) (bit c 4) (bit c 5)

theorem enc_payloadOf : ∀ c : CodeWord, c.getLsbD 7 = false → selfConsistent c = true → enc (payloadOf c) = c := by
  decide

/-- The image is the self-consistent codes with bit 7 clear (rules R68, R117). -/
theorem exists_enc_eq_iff (c : CodeWord) : (∃ d, enc d = c) ↔ c.getLsbD 7 = false ∧ selfConsistent c = true := by
  constructor
  · rintro ⟨d, rfl⟩
    obtain ⟨-, -, bit7⟩ := enc_parities d
    exact ⟨bit7, selfConsistent_enc d⟩
  · rintro ⟨bit7, consistent⟩
    exact ⟨payloadOf c, enc_payloadOf c bit7 consistent⟩

/-! ### The number of payloads per code -/

/-- The payloads, as numbers, whose code is `c`. -/
def payloadsOf (c : CodeWord) : Finset Nat :=
  (Finset.range 512).filter fun p => enc (BitVec.ofNat 16 p) = c

theorem mem_payloadsOf {c : CodeWord} {p : Nat} : p ∈ payloadsOf c ↔ p < 512 ∧ enc (BitVec.ofNat 16 p) = c := by
  simp [payloadsOf]

theorem payload_toNat_mem_payloadsOf (d : DataWord) : (payload d).toNat ∈ payloadsOf (enc d) := by
  refine mem_payloadsOf.mpr ⟨(payload d).isLt, enc_congr_payload ?_⟩
  apply BitVec.eq_of_toNat_eq
  simp [payload]

/-- By linearity, XOR with one payload of a code carries that code's payloads to those of another code. -/
theorem xor_mem_payloadsOf {c c' : CodeWord} {p q : Nat} (hp : p ∈ payloadsOf c) (hq : q ∈ payloadsOf c') :
    p ^^^ q ∈ payloadsOf (c ^^^ c') := by
  obtain ⟨p_lt, rfl⟩ := mem_payloadsOf.mp hp
  obtain ⟨q_lt, rfl⟩ := mem_payloadsOf.mp hq
  exact mem_payloadsOf.mpr ⟨Nat.xor_lt_two_pow (n := 9) p_lt q_lt, by rw [BitVec.ofNat_xor, enc_xor]⟩

/-- All codes of the image have equally many payloads: XOR with one payload pairs them with those of code 0. -/
theorem card_payloadsOf_enc (d : DataWord) : (payloadsOf (enc d)).card = (payloadsOf 0#8).card := by
  have own := payload_toNat_mem_payloadsOf d
  refine Finset.card_nbij' (· ^^^ (payload d).toNat) (· ^^^ (payload d).toNat) ?_ ?_ ?_ ?_
  · intro p hp
    simpa using xor_mem_payloadsOf hp own
  · intro p hp
    simpa using xor_mem_payloadsOf hp own
  · exact fun p _ => Nat.xor_xor_cancel_right p _
  · exact fun p _ => Nat.xor_xor_cancel_right p _

/-- The self-consistent seven-bit codes, as numbers. -/
def imageCodes : Finset Nat :=
  (Finset.range 128).filter fun k => selfConsistent (BitVec.ofNat 8 k) = true

theorem card_imageCodes : imageCodes.card = 32 := by
  simp only [imageCodes, selfConsistent_eq]
  decide

theorem mem_imageCodes {k : Nat} : k ∈ imageCodes ↔ k < 128 ∧ selfConsistent (BitVec.ofNat 8 k) = true := by
  simp [imageCodes]

theorem enc_toNat_mem_imageCodes (d : DataWord) : (enc d).toNat ∈ imageCodes := by
  refine mem_imageCodes.mpr ⟨enc_toNat_lt d, ?_⟩
  rw [BitVec.ofNat_toNat, BitVec.setWidth_eq]
  exact selfConsistent_enc d

theorem exists_enc_of_mem_imageCodes {k : Nat} (h : k ∈ imageCodes) : ∃ d, (enc d).toNat = k := by
  obtain ⟨k_lt, consistent⟩ := mem_imageCodes.mp h
  have bit7 : (BitVec.ofNat 8 k).getLsbD 7 = false := by
    rw [BitVec.getLsbD_ofNat, Nat.testBit_lt_two_pow (i := 7) k_lt, Bool.and_false]
  obtain ⟨d, hd⟩ := (exists_enc_eq_iff _).mpr ⟨bit7, consistent⟩
  exact ⟨d, by rw [hd, BitVec.toNat_ofNat]; omega⟩

/-- The 512 payloads are shared out evenly among the 32 codes (rule R68). -/
theorem card_payloadsOf_zero : (payloadsOf 0#8).card = 16 := by
  have fiber : ∀ k ∈ imageCodes,
      ((Finset.range 512).filter fun p => (enc (BitVec.ofNat 16 p)).toNat = k).card = (payloadsOf 0#8).card := by
    intro k hk
    obtain ⟨d, rfl⟩ := exists_enc_of_mem_imageCodes hk
    rw [← card_payloadsOf_enc d]
    simp only [payloadsOf, BitVec.toNat_inj]
  have shared : 512 = 32 * (payloadsOf 0#8).card := by
    calc 512
        = (Finset.range 512).card := (Finset.card_range 512).symm
      _ = ∑ k ∈ imageCodes, ((Finset.range 512).filter fun p => (enc (BitVec.ofNat 16 p)).toNat = k).card :=
          Finset.card_eq_sum_card_fiberwise fun p _ => enc_toNat_mem_imageCodes _
      _ = imageCodes.card * (payloadsOf 0#8).card := Finset.sum_const_nat fiber
      _ = 32 * (payloadsOf 0#8).card := by rw [card_imageCodes]
  omega

/-- Settles O25: the image is read off the parities, and linearity makes every code's share of the payloads the same. -/
theorem encImageIsSelfConsistentCodes : Obligations.EncImageIsSelfConsistentCodes := by
  refine ⟨exists_enc_eq_iff, card_imageCodes, fun c bit7 consistent => ?_⟩
  obtain ⟨d, rfl⟩ := (exists_enc_eq_iff c).mpr ⟨bit7, consistent⟩
  exact (card_payloadsOf_enc d).trans card_payloadsOf_zero

end Sys2Proof.Machine
end

section
/-! PROOFS. The wrapper: what each select sends to its unit, what it drops, and where the result stands in `y`
(spec/30_encoding.md rules R71, R73, R79, R81, R82). -/

namespace Sys2Proof.Machine

open Sys2Proof.Safety

/-! ### Narrow values in wide words -/

theorem zext32_toNat {w : Nat} (h : w ≤ 32) (v : BitVec w) : (zext32 v).toNat = v.toNat :=
  BitVec.toNat_setWidth_of_le h

/-- Above its own size a zero-extended value has only zeros (rule R79). -/
theorem zext32_extractLsb'_eq_zero {w k : Nat} {v : BitVec w} (h : v.toNat < 2 ^ k) (n : Nat) :
    (zext32 v).extractLsb' k n = 0#n := by
  have small : v.toNat % 2 ^ 32 < 2 ^ k := lt_of_le_of_lt (Nat.mod_le _ _) h
  apply BitVec.eq_of_toNat_eq
  rw [BitVec.extractLsb'_toNat, zext32, BitVec.toNat_setWidth, Nat.shiftRight_eq_div_pow, Nat.div_eq_of_lt small]
  simp

/-- A field of the 16-bit result is that field of `y` (rule R79). -/
theorem zext32_extractLsb' (v : DataWord) {i n : Nat} (h : i + n ≤ 16) : (zext32 v).extractLsb' i n = v.extractLsb' i n := by
  ext j hj
  simp [zext32, show i + j < 32 by omega]

/-- A field of the data operand is that field of `a` (rule R71). -/
theorem dataOperand_extractLsb' (a : Word) {i n : Nat} (h : i + n ≤ 16) :
    (dataOperand a).extractLsb' i n = a.extractLsb' i n := by
  ext j hj
  simp [dataOperand, show i + j < 16 by omega]

theorem popcount_le (v : Word) : (popcount v).toNat ≤ 32 :=
  (popcount_toNat v).trans_le (countOnes_le v 32)

theorem msb_le (v : Word) : (msb v).toNat ≤ 32 :=
  (msb_toNat v).trans_le (highestOne_le v 32)

theorem enc_le (d : DataWord) : (enc d).toNat ≤ 0x7F :=
  Nat.le_of_lt_succ (enc_toNat_lt d)

/-! ### One DEC -/

/-- Succeeding or failing, a DEC shows one value on `dec_corrected` and in `y`, and `ok` tells whether it is the corrected word
(rules R140, R141). -/
theorem exec_dec (d : DataWord) (c : CodeWord) (s : State) :
    ∃ k v, exec (.dec d c) s = .next (respond k (zext32 v) (driveDecoder d c k v s))
      ∧ correct d c = if k = 1#1 then some v else none := by
  cases hc : correct d c with
  | some v => exact ⟨1#1, v, exec_dec_of_some hc s, rfl⟩
  | none => exact ⟨0#1, failData d c s, exec_dec_of_none hc s, rfl⟩

/-- DEC answers its data word XORed with a mask that the syndrome alone fixes, being the answer to the syndrome itself received
with the zero word (rules R137, R140). -/
theorem correct_eq_map (d : DataWord) (c : CodeWord) :
    correct d c = (correct 0#16 ((syndrome d c).setWidth 8)).map (d ^^^ ·) := by
  have sameCell : repaired 0#16 ((syndrome d c).setWidth 8) = cellMask (faultyRow d c) (faultyColumn d c) := by
    simp only [repaired, faultyRow, faultyColumn, rowSyn, colSyn, syndrome_zero, BitVec.zero_xor]
  rw [correct, correct, ← decClass_eq_of_syndrome, sameCell]
  cases decClass d c <;> simp [repaired]

/-- The matrix cells are the payload bits 0 to 8 (rule R60), so a repair moves no bit above them. -/
theorem cellMask_high (row col : Nat) : (cellMask row col).extractLsb' 9 7 = 0#7 := by
  have cell_lt : cell row col < 9 := by
    rw [cell]
    omega
  have masks : ∀ p < 9, (1#16 <<< p : DataWord).extractLsb' 9 7 = 0#7 := by decide
  exact masks _ cell_lt

theorem correct_zero_high {c : CodeWord} {m : DataWord} (h : correct 0#16 c = some m) : m.extractLsb' 9 7 = 0#7 := by
  rw [correct] at h
  cases hclass : decClass 0#16 c <;> simp only [hclass, Option.some.injEq, reduceCtorEq, repaired] at h <;> subst h
  case corrected => rw [BitVec.zero_xor, cellMask_high]
  all_goals rfl

/-- The code enters the syndrome by its low seven bits (rules R77, R126). -/
theorem syndrome_congr {d d' : DataWord} {c c' : CodeWord} (hd : payload d = payload d') (hc : lowSeven c = lowSeven c') :
    syndrome d c = syndrome d' c' := by
  have split (e c : CodeWord) : lowSeven (e ^^^ c) = lowSeven e ^^^ lowSeven c := BitVec.extractLsb'_xor
  simp only [syndrome, split, hc, enc_congr_payload hd]

/-- Pairs with one syndrome fail together, or have the same payload bits flipped. -/
theorem correct_of_syndrome_eq {d d' : DataWord} {c c' : CodeWord} (h : syndrome d c = syndrome d' c') :
    (correct d c = none ∧ correct d' c' = none)
    ∨ ∃ m : DataWord, m.extractLsb' 9 7 = 0#7 ∧ correct d c = some (d ^^^ m) ∧ correct d' c' = some (d' ^^^ m) := by
  rw [correct_eq_map d c, correct_eq_map d' c', ← h]
  cases hm : correct 0#16 ((syndrome d c).setWidth 8) with
  | none => exact .inl ⟨rfl, rfl⟩
  | some m => exact .inr ⟨m, correct_zero_high hm, rfl, rfl⟩

/-! ### One step on a presented bundle -/

theorem step_popcnt (b : CodeWord) (a : Word) (s : State) :
    step (presentRequest (bundle 0b00#2 b a) s)
      = .next (respond 1#1 (zext32 (popcount a)) (drivePopcount a (popcount a) (presentRequest (bundle 0b00#2 b a) s))) := by
  rw [step_presentRequest, decode_popcnt, exec_popcnt]

theorem step_msb (b : CodeWord) (a : Word) (s : State) :
    step (presentRequest (bundle 0b01#2 b a) s)
      = .next (respond 1#1 (zext32 (msb a)) (driveMsb a (msb a) (presentRequest (bundle 0b01#2 b a) s))) := by
  rw [step_presentRequest, decode_msb, exec_msb]

theorem step_enc (b : CodeWord) (a : Word) (s : State) :
    step (presentRequest (bundle 0b10#2 b a) s)
      = .next (respond 1#1 (zext32 (enc (dataOperand a)))
          (driveEncoder (dataOperand a) (enc (dataOperand a)) (presentRequest (bundle 0b10#2 b a) s))) := by
  rw [step_presentRequest, decode_enc, exec_enc]

theorem step_dec (b : CodeWord) (a : Word) (s : State) :
    step (presentRequest (bundle 0b11#2 b a) s)
      = exec (.dec (dataOperand a) b) (presentRequest (bundle 0b11#2 b a) s) := by
  rw [step_presentRequest, decode_dec]

/-! ### Completion, routing, ignored bits, zero-extension -/

/-- Settles O8: every operation completes, and none moves the request ports. -/
theorem everyRequestAnswered : Obligations.EveryRequestAnswered := by
  refine ⟨exec_completes, fun r s => ?_⟩
  obtain ⟨t, ht⟩ := exec_completes (decode r) (presentRequest r s)
  exact ⟨t, (step_presentRequest r s).trans ht, (requestOf_of_exec ht).trans (requestOf_presentRequest r s)⟩

/-- Settles O5: each select's step is written out, and its ports are read off; ENC sees the payload and DEC the
syndrome only. -/
theorem wrapperRoutesToUnits : Obligations.WrapperRoutesToUnits := by
  refine ⟨fun a b s => ?_, fun a b s => ?_, fun a b s => ?_, fun a b s => ?_, fun d d' h => enc_congr_payload h,
    fun d c c' h => ?_⟩
  · exact ⟨_, step_popcnt b a s, rfl, rfl, rfl, (zext32_toNat (by decide) _).trans_le (popcount_le a), rfl⟩
  · exact ⟨_, step_msb b a s, rfl, rfl, rfl, (zext32_toNat (by decide) _).trans_le (msb_le a), rfl⟩
  · exact ⟨_, step_enc b a s, rfl, rfl, rfl, (zext32_toNat (by decide) _).trans_le (enc_le (dataOperand a)), rfl⟩
  · obtain ⟨k, v, answered, hc⟩ := exec_dec (dataOperand a) b (presentRequest (bundle 0b11#2 b a) s)
    exact ⟨_, (step_dec b a s).trans answered, rfl, rfl, hc, rfl, rfl⟩
  · rw [correct_eq_map d c, correct_eq_map d c', syndrome_congr rfl h]

theorem payload_dataOperand_congr {a a' : Word} (h : a.extractLsb' 0 9 = a'.extractLsb' 0 9) :
    payload (dataOperand a) = payload (dataOperand a') := by
  rw [payload, payload, dataOperand_extractLsb' a (by decide), dataOperand_extractLsb' a' (by decide), h]

/-- What a mask `m` makes of the data operand, field by field of `y` (rules R71, R79). -/
theorem zext32_xor_extractLsb' (a : Word) (m : DataWord) {i n : Nat} (h : i + n ≤ 16) :
    (zext32 (dataOperand a ^^^ m)).extractLsb' i n = a.extractLsb' i n ^^^ m.extractLsb' i n := by
  rw [zext32_extractLsb' _ h, BitVec.extractLsb'_xor, dataOperand_extractLsb' a h]

/-- Settles O6: equal payloads give equal codes, and equal syndromes make both DECs fail or flip the same payload bits. -/
theorem ignoredRequestBits : Obligations.IgnoredRequestBits := by
  refine ⟨fun sel a b b' s hsel => ?_, fun a a' b b' s ha => ?_, fun a a' b b' s ha hb => ?_⟩
  · obtain rfl | rfl := hsel
    · refine ⟨_, _, step_popcnt b a s, step_popcnt b' a s, ?_⟩
      rw [responseOf_respond, responseOf_respond]
    · refine ⟨_, _, step_msb b a s, step_msb b' a s, ?_⟩
      rw [responseOf_respond, responseOf_respond]
  · refine ⟨_, _, step_enc b a s, step_enc b' a' s, ?_⟩
    rw [responseOf_respond, responseOf_respond, enc_congr_payload (payload_dataOperand_congr ha)]
  · have sameSyndrome := syndrome_congr (payload_dataOperand_congr ha) hb
    obtain ⟨fails, fails'⟩ | ⟨m, high, answers, answers'⟩ := correct_of_syndrome_eq sameSyndrome
    · refine ⟨_, _, (step_dec b a s).trans (exec_dec_of_none fails _),
        (step_dec b' a' s).trans (exec_dec_of_none fails' _), ?_, ?_, fun (ok : 0#1 = 1#1) => absurd ok (by decide)⟩
      · rw [respond_ok, respond_ok]
      · rw [respond_y, respond_y, zext32_dataWord_high, zext32_dataWord_high]
    · refine ⟨_, _, (step_dec b a s).trans (exec_dec_of_some answers _),
        (step_dec b' a' s).trans (exec_dec_of_some answers' _), ?_, ?_, fun _ => ⟨?_, ?_, ?_⟩⟩
      · rw [respond_ok, respond_ok]
      · rw [respond_y, respond_y, zext32_dataWord_high, zext32_dataWord_high]
      · rw [respond_y, respond_y, zext32_xor_extractLsb' a m (by decide), zext32_xor_extractLsb' a' m (by decide), ha]
      · rw [respond_y, zext32_xor_extractLsb' a m (by decide), high, BitVec.xor_zero]
      · rw [respond_y, zext32_xor_extractLsb' a' m (by decide), high, BitVec.xor_zero]

/-- Settles O15: the operation's own next state shows the result in `y`, and the result fits in its width. -/
theorem resultZeroExtended : Obligations.ResultZeroExtended := by
  intro i s t answered
  refine ⟨?_, ?_, ?_, ?_⟩
  · rintro ⟨v, rfl⟩
    obtain rfl := Host.Outcome.next.inj ((exec_popcnt v s).symm.trans answered)
    exact ⟨rfl, zext32_extractLsb'_eq_zero (popcount v).isLt 26⟩
  · rintro ⟨v, rfl⟩
    obtain rfl := Host.Outcome.next.inj ((exec_msb v s).symm.trans answered)
    exact ⟨rfl, zext32_extractLsb'_eq_zero (msb v).isLt 26⟩
  · rintro ⟨d, rfl⟩
    obtain rfl := Host.Outcome.next.inj ((exec_enc d s).symm.trans answered)
    exact ⟨rfl, zext32_extractLsb'_eq_zero (enc_toNat_lt d) 25⟩
  · rintro ⟨d, c, rfl⟩
    obtain ⟨k, v, dec, -⟩ := exec_dec d c s
    obtain rfl := Host.Outcome.next.inj (dec.symm.trans answered)
    exact ⟨rfl, zext32_dataWord_high v⟩

end Sys2Proof.Machine
end

section
/-! PROOFS. The population count: as a cardinality, and over bitwise operations
(spec/40_popcount.md rules R90, R93). -/

namespace Sys2Proof.Machine

/-! ### The count as a number of indices -/

/-- The indices of the 1 bits of a word. -/
def onesOf (v : Word) : Finset (Fin 32) := Finset.univ.filter fun i => v.getLsbD i = true

theorem mem_onesOf {v : Word} {i : Fin 32} : i ∈ onesOf v ↔ v.getLsbD i = true := by
  simp [onesOf]

theorem countOnes_eq_card {w : Nat} (v : BitVec w) (n : Nat) :
    countOnes v n = (Finset.univ.filter fun i : Fin n => v.getLsbD i = true).card := by
  rw [Finset.card_filter]
  induction n with
  | zero => rfl
  | succ n ih =>
    rw [countOnes, ih, Fin.sum_univ_castSucc, bit_toNat]
    cases hbit : v.getLsbD n <;> simp [hbit]

theorem popcount_toNat_eq_card (v : Word) : (popcount v).toNat = (onesOf v).card :=
  (popcount_toNat v).trans (countOnes_eq_card v 32)

/-- Settles O16: the scan's sum is the number of indices, and the result's six bits hold it. -/
theorem popcntCountsOnes : Obligations.PopcntCountsOnes := by
  intro v s
  have wide : zext32 (popcount v) = BitVec.ofNat 32 (countOnes v 32) := by
    rw [← popcount_toNat, zext32, BitVec.ofNat_toNat]
  refine ⟨fun b => decode_popcnt b v, countOnes v 32, countOnes_eq_card v 32, countOnes_le v 32, ?_⟩
  rw [exec_popcnt, wide]
  rfl

/-! ### Algebra -/

theorem onesOf_zero : onesOf 0#32 = ∅ := by decide

theorem onesOf_oneHot (k : Fin 32) : onesOf (1#32 <<< (k : Nat)) = {k} := by
  revert k
  decide

theorem onesOf_injective : Function.Injective onesOf := by
  intro v w h
  ext i hi
  have sameBit := Finset.ext_iff.mp h ⟨i, hi⟩
  rw [mem_onesOf, mem_onesOf, ← Bool.eq_iff_iff] at sameBit
  exact sameBit

theorem popcount_eq_zero_iff (v : Word) : popcount v = 0#6 ↔ v = 0#32 := by
  rw [← BitVec.toNat_inj, popcount_toNat_eq_card]
  change (onesOf v).card = 0 ↔ _
  rw [Finset.card_eq_zero, ← onesOf_zero, onesOf_injective.eq_iff]

theorem popcount_eq_one_iff (v : Word) : popcount v = 1#6 ↔ ∃ k < 32, v = 1#32 <<< k := by
  rw [← BitVec.toNat_inj, popcount_toNat_eq_card]
  change (onesOf v).card = 1 ↔ _
  simp only [Finset.card_eq_one, ← onesOf_oneHot, onesOf_injective.eq_iff]
  exact ⟨fun ⟨k, h⟩ => ⟨k, k.isLt, h⟩, fun ⟨k, hk, h⟩ => ⟨⟨k, hk⟩, h⟩⟩

/-- Inclusion and exclusion, bit by bit. -/
theorem countOnes_or_add_and {w : Nat} (a b : BitVec w) (n : Nat) :
    countOnes (a ||| b) n + countOnes (a &&& b) n = countOnes a n + countOnes b n := by
  induction n with
  | zero => rfl
  | succ n ih =>
    have atBit : (bit (a ||| b) n).toNat + (bit (a &&& b) n).toNat = (bit a n).toNat + (bit b n).toNat := by
      simp only [bit_toNat, BitVec.getLsbD_or, BitVec.getLsbD_and]
      cases a.getLsbD n <;> cases b.getLsbD n <;> rfl
    simp only [countOnes]
    omega

/-- An XOR loses the common 1 bits of both words. -/
theorem countOnes_xor_add_two_mul_and {w : Nat} (a b : BitVec w) (n : Nat) :
    countOnes (a ^^^ b) n + 2 * countOnes (a &&& b) n = countOnes a n + countOnes b n := by
  induction n with
  | zero => rfl
  | succ n ih =>
    have atBit : (bit (a ^^^ b) n).toNat + 2 * (bit (a &&& b) n).toNat = (bit a n).toNat + (bit b n).toNat := by
      simp only [bit_toNat, BitVec.getLsbD_xor, BitVec.getLsbD_and]
      cases a.getLsbD n <;> cases b.getLsbD n <;> rfl
    simp only [countOnes]
    omega

theorem popcount_or_of_disjoint {a b : Word} (disjoint : a &&& b = 0#32) :
    (popcount (a ||| b)).toNat = (popcount a).toNat + (popcount b).toNat := by
  have noCommon : countOnes (a &&& b) 32 = 0 := by
    rw [disjoint]
    decide
  have := countOnes_or_add_and a b 32
  simp only [popcount_toNat]
  omega

/-- The parity of the count is the XOR of the counted bits (rule R12). -/
theorem countOnes_mod_two {w : Nat} (v : BitVec w) (n : Nat) :
    countOnes v n % 2 = ((List.range n).foldl (fun x i => x ^^ v.getLsbD i) false).toNat := by
  induction n with
  | zero => rfl
  | succ n ih =>
    rw [countOnes, bit_toNat, Nat.add_mod, ih, List.range_succ, List.foldl_append]
    cases (List.range n).foldl (fun x i => x ^^ v.getLsbD i) false <;> cases hbit : v.getLsbD n <;> simp [hbit]

/-- Settles O17: the first two facts by the set of 1 bits, the others by the sums over all bits. -/
theorem popcntAlgebra : Obligations.PopcntAlgebra := by
  refine ⟨popcount_eq_zero_iff, popcount_eq_one_iff, fun a b h => popcount_or_of_disjoint h, fun v => ?_, fun a b => ?_⟩
  · rw [popcount_toNat, countOnes_mod_two]
  · have := countOnes_xor_add_two_mul_and a b 32
    simp only [popcount_toNat]
    omega

end Sys2Proof.Machine
end

section
/-! PROOFS. The reference algorithm of the population count (spec/40_popcount.md rule R92), read in nibbles: its first two
lines count each nibble on its own, the third sums neighbours, the fourth sums the bytes. -/

namespace Sys2Proof.Machine

/-! ### Lanes of a word -/

theorem toNat_append_eq_mul_add {w u : Nat} (x : BitVec w) (y : BitVec u) :
    (x ++ y).toNat = x.toNat * 2 ^ u + y.toNat := by
  rw [BitVec.toNat_append, ← Nat.shiftLeft_add_eq_or_of_lt y.isLt, Nat.shiftLeft_eq]

/-- Without a carry out of the low lane, the lanes add on their own. -/
theorem append_add_append {w u : Nat} (x x' : BitVec w) {y y' : BitVec u} (noCarry : y.toNat + y'.toNat < 2 ^ u) :
    (x ++ y) + (x' ++ y') = (x + x') ++ (y + y') := by
  have regroup : x.toNat * 2 ^ u + y.toNat + (x'.toNat * 2 ^ u + y'.toNat)
      = y.toNat + y'.toNat + (x.toNat + x'.toNat) * 2 ^ u := by ring
  apply BitVec.eq_of_toNat_eq
  simp only [BitVec.toNat_add, toNat_append_eq_mul_add]
  rw [regroup, Nat.add_comm w u, Nat.pow_add, Nat.mod_mul, Nat.add_mul_mod_self_right,
    Nat.add_mul_div_right _ _ (Nat.two_pow_pos u), Nat.div_eq_of_lt noCarry, Nat.mod_eq_of_lt noCarry, Nat.zero_add]
  ring

/-- Without a borrow from the high lane, the lanes subtract on their own. -/
theorem append_sub_append {w u : Nat} (x x' : BitVec w) {y y' : BitVec u} (noBorrow : y' ≤ y) :
    (x ++ y) - (x' ++ y') = (x - x') ++ (y - y') := by
  have noCarry : (y - y').toNat + y'.toNat < 2 ^ u := by
    rw [BitVec.toNat_sub_of_le noBorrow, Nat.sub_add_cancel noBorrow]
    exact y.isLt
  rw [BitVec.sub_eq_iff_eq_add, append_add_append _ _ noCarry, BitVec.sub_add_cancel, BitVec.sub_add_cancel]

/-- A mask that is clear where a right shift brings bits of the high lane in keeps the lanes apart. -/
theorem ushiftRight_append_and {w u k : Nat} (x m : BitVec w) (y m' : BitVec u) (clear : m'.toNat < 2 ^ (u - k)) :
    ((x ++ y) >>> k) &&& (m ++ m') = ((x >>> k) &&& m) ++ ((y >>> k) &&& m') := by
  apply BitVec.eq_of_getLsbD_eq
  intro i _
  simp only [BitVec.getLsbD_and, BitVec.getLsbD_ushiftRight, BitVec.getLsbD_append]
  by_cases low : i < u
  · by_cases inLane : k + i < u
    · simp only [low, inLane, if_true]
    · have masked : m'.getLsbD i = false :=
        Nat.testBit_lt_two_pow (clear.trans_le (Nat.pow_le_pow_right (by decide) (by omega)))
      simp only [low, if_true, masked, Bool.and_false]
  · simp only [low, if_false, show ¬ k + i < u by omega, show k + i - u = k + (i - u) by omega]

/-! ### Nibbles of a word -/

/-- `n` nibbles side by side, the first in the lowest place. -/
def joinNibbles (c : Nat → BitVec 4) : (n : Nat) → BitVec (4 * n)
  | 0 => 0#0
  | n + 1 => joinNibbles (fun i => c (i + 1)) n ++ c 0

/-- Every word is made of nibbles, and those above its top are 0. -/
theorem exists_eq_joinNibbles {n : Nat} (v : BitVec (4 * n)) :
    ∃ c : Nat → BitVec 4, c n = 0#4 ∧ v = joinNibbles c n := by
  induction n with
  | zero => exact ⟨fun _ => 0#4, rfl, BitVec.eq_nil v⟩
  | succ n ih =>
    obtain ⟨c, top, high⟩ := ih (v.extractLsb' 4 (4 * n))
    refine ⟨fun i => i.casesOn (v.extractLsb' 0 4) c, top, ?_⟩
    exact BitVec.extractLsb'_append_extractLsb'.symm.trans (congrArg (· ++ v.extractLsb' 0 4) high)

theorem joinNibbles_and (c d : Nat → BitVec 4) (n : Nat) :
    joinNibbles c n &&& joinNibbles d n = joinNibbles (fun i => c i &&& d i) n := by
  induction n generalizing c d with
  | zero => exact BitVec.eq_of_zero_length rfl
  | succ n ih => exact BitVec.and_append.trans (congrArg (· ++ (c 0 &&& d 0)) (ih _ _))

theorem joinNibbles_add {c d : Nat → BitVec 4} (noCarry : ∀ i, (c i).toNat + (d i).toNat < 2 ^ 4) (n : Nat) :
    joinNibbles c n + joinNibbles d n = joinNibbles (fun i => c i + d i) n := by
  induction n generalizing c d with
  | zero => exact BitVec.eq_of_zero_length rfl
  | succ n ih =>
    exact (append_add_append _ _ (noCarry 0)).trans (congrArg (· ++ (c 0 + d 0)) (ih fun i => noCarry (i + 1)))

theorem joinNibbles_toNat_zero (c : Nat → BitVec 4) : (joinNibbles c 0).toNat = 0 := rfl

theorem joinNibbles_toNat_succ (c : Nat → BitVec 4) (n : Nat) :
    (joinNibbles c (n + 1)).toNat = (joinNibbles (fun i => c (i + 1)) n).toNat * 16 + (c 0).toNat :=
  toNat_append_eq_mul_add _ _

theorem joinNibbles_toNat_of_top_eq_zero {c : Nat → BitVec 4} {n : Nat} (top : c n = 0#4) :
    (joinNibbles c (n + 1)).toNat = (joinNibbles c n).toNat := by
  induction n generalizing c with
  | zero => simp [joinNibbles, top]
  | succ n ih => rw [joinNibbles_toNat_succ, ih top, joinNibbles_toNat_succ]

/-- A shift by one nibble drops the lowest. -/
theorem joinNibbles_ushiftRight {c : Nat → BitVec 4} {n : Nat} (top : c n = 0#4) :
    joinNibbles c n >>> 4 = joinNibbles (fun i => c (i + 1)) n := by
  apply BitVec.eq_of_toNat_eq
  have low := (c 0).isLt
  rw [BitVec.toNat_ushiftRight, ← joinNibbles_toNat_of_top_eq_zero top, joinNibbles_toNat_succ, Nat.shiftRight_eq_div_pow]
  omega

/-- The scan is the library's population count, which knows appended words. -/
theorem countOnes_eq_cpopNatRec {w : Nat} (v : BitVec w) (n : Nat) : countOnes v n = v.cpopNatRec n 0 := by
  induction n with
  | zero => rfl
  | succ n ih => rw [countOnes, ih, bit_toNat, BitVec.cpopNatRec_succ, BitVec.cpopNatRec_add]

theorem countOnes_append {w u : Nat} (x : BitVec w) (y : BitVec u) :
    countOnes (x ++ y) (w + u) = countOnes x w + countOnes y u := by
  simp only [countOnes_eq_cpopNatRec, ← BitVec.toNat_cpop, BitVec.toNat_cpop_append]

theorem countOnes_joinNibbles (c : Nat → BitVec 4) (n : Nat) :
    countOnes (joinNibbles c n) (4 * n) = ∑ i ∈ Finset.range n, countOnes (c i) 4 := by
  induction n generalizing c with
  | zero => rfl
  | succ n ih => exact (countOnes_append _ _).trans (by rw [ih, Finset.sum_range_succ'])

/-! ### The reference algorithm -/

/-- The first two lines of the reference algorithm, for any width and its masks. -/
def nibbleCounts {w : Nat} (fives threes v : BitVec w) : BitVec w :=
  let pairs := v - ((v >>> 1) &&& fives)
  (pairs &&& threes) + ((pairs >>> 2) &&& threes)

/-- The number of 1 bits of one nibble, as these lines compute it. -/
def nibbleCount (x : BitVec 4) : BitVec 4 := nibbleCounts 0x5#4 0x3#4 x

theorem nibbleCount_toNat : ∀ x : BitVec 4, (nibbleCount x).toNat = countOnes x 4 := by decide

theorem nibbleCount_le (x : BitVec 4) : (nibbleCount x).toNat ≤ 4 :=
  (nibbleCount_toNat x).trans_le (countOnes_le x 4)

theorem nibbleCount_add_toNat (x y : BitVec 4) : (nibbleCount x + nibbleCount y).toNat = countOnes x 4 + countOnes y 4 := by
  have := nibbleCount_le x
  have := nibbleCount_le y
  rw [BitVec.toNat_add, ← nibbleCount_toNat, ← nibbleCount_toNat]
  omega

/-- The lowest nibble is counted on its own. -/
theorem nibbleCounts_append {w : Nat} (fives threes x : BitVec w) (y : BitVec 4) :
    nibbleCounts (fives ++ 0x5#4) (threes ++ 0x3#4) (x ++ y) = nibbleCounts fives threes x ++ nibbleCount y := by
  have noBorrow : ∀ y : BitVec 4, (y >>> 1) &&& 0x5#4 ≤ y := by decide
  have noCarry : ∀ p : BitVec 4, (p &&& 0x3#4).toNat + ((p >>> 2) &&& 0x3#4).toNat < 2 ^ 4 := by decide
  simp only [nibbleCount, nibbleCounts]
  rw [ushiftRight_append_and x fives y _ (by decide), append_sub_append _ _ (noBorrow y),
    ushiftRight_append_and _ threes _ _ (by decide), BitVec.and_append, append_add_append _ _ (noCarry _)]

theorem nibbleCounts_joinNibbles (c : Nat → BitVec 4) (n : Nat) :
    nibbleCounts (joinNibbles (fun _ => 0x5#4) n) (joinNibbles (fun _ => 0x3#4) n) (joinNibbles c n)
      = joinNibbles (fun i => nibbleCount (c i)) n := by
  induction n generalizing c with
  | zero => exact BitVec.eq_of_zero_length rfl
  | succ n ih => exact (nibbleCounts_append _ _ _ _).trans (congrArg (· ++ nibbleCount (c 0)) (ih _))

/-- The sum and mask of the third line: with at most 4 in each nibble, no sum of two neighbours carries. -/
theorem byteCounts_joinNibbles {k : Nat → BitVec 4} (small : ∀ i, (k i).toNat ≤ 4) {n : Nat} (top : k n = 0#4)
    (m : Nat → BitVec 4) :
    (joinNibbles k n + joinNibbles k n >>> 4) &&& joinNibbles m n = joinNibbles (fun i => (k i + k (i + 1)) &&& m i) n := by
  have noCarry (i : Nat) : (k i).toNat + (k (i + 1)).toNat < 2 ^ 4 := by
    have := small i
    have := small (i + 1)
    omega
  rw [joinNibbles_ushiftRight top, joinNibbles_add noCarry, joinNibbles_and]

/-- The mask of the third line keeps the low nibble of each byte. -/
def lowNibbleMask (i : Nat) : BitVec 4 := if i % 2 = 0 then 0xF#4 else 0x0#4

theorem joinNibbles_lowNibbleMask_toNat (d : Nat → BitVec 4) :
    (joinNibbles (fun i => d i &&& lowNibbleMask i) 8).toNat
      = (((d 6).toNat * 256 + (d 4).toNat) * 256 + (d 2).toNat) * 256 + (d 0).toNat := by
  have keep (x : BitVec 4) : x &&& 0xF#4 = x := BitVec.and_allOnes
  simp only [joinNibbles_toNat_succ, joinNibbles_toNat_zero, lowNibbleMask, Nat.reduceMod, Nat.reduceAdd, one_ne_zero,
    reduceIte, keep, BitVec.and_zero, BitVec.toNat_ofNat, Nat.zero_mod]
  ring

/-- The fourth line: the product's top byte is the sum of the four bytes. -/
theorem horizontalSum_toNat {d : Nat → BitVec 4} (small : ∀ i, (d i).toNat ≤ 8) :
    (((joinNibbles (fun i => d i &&& lowNibbleMask i) 8 * 0x01010101#32) >>> 24).setWidth 6).toNat
      = (d 0).toNat + (d 2).toNat + (d 4).toNat + (d 6).toNat := by
  have bytes := joinNibbles_lowNibbleMask_toNat d
  have b0 := small 0
  have b1 := small 2
  have b2 := small 4
  have b3 := small 6
  generalize joinNibbles _ 8 = x at bytes ⊢
  have quotient : x.toNat * 0x01010101 / 2 ^ 24 = (d 0).toNat + (d 2).toNat + (d 4).toNat + (d 6).toNat
      + 2 ^ 8 * ((d 2).toNat + (d 4).toNat + (d 6).toNat + 256 * ((d 4).toNat + (d 6).toNat) + 65536 * (d 6).toNat) := by
    omega
  have topByte : x.toNat * 0x01010101 % 2 ^ 32 / 2 ^ 24 = (d 0).toNat + (d 2).toNat + (d 4).toNat + (d 6).toNat := by
    rw [Nat.pow_add 2 24 8, Nat.mod_mul_right_div_self, quotient, Nat.add_mul_mod_self_left]
    omega
  rw [BitVec.toNat_setWidth, BitVec.toNat_ushiftRight, BitVec.toNat_mul, Nat.shiftRight_eq_div_pow,
    BitVec.toNat_ofNat 0x01010101, Nat.mod_eq_of_lt (by decide : 0x01010101 < 2 ^ 32), topByte]
  omega

/-- The reference algorithm by its lines (rule R92). -/
theorem swarPopcount_eq (v : Word) :
    swarPopcount v
      = ((((nibbleCounts 0x55555555#32 0x33333333#32 v + nibbleCounts 0x55555555#32 0x33333333#32 v >>> 4)
          &&& 0x0F0F0F0F#32) * 0x01010101#32) >>> 24).setWidth 6 := rfl

/-- Settles O18: in nibbles, each line of the reduction acts in its lanes, and both sides end as the sum of eight counts. -/
theorem swarRefinesPopcount : Obligations.SwarRefinesPopcount := by
  intro v
  obtain ⟨c, top, rfl⟩ := exists_eq_joinNibbles (n := 8) v
  have fives : 0x55555555#32 = joinNibbles (fun _ => 0x5#4) 8 := by decide
  have threes : 0x33333333#32 = joinNibbles (fun _ => 0x3#4) 8 := by decide
  have lowNibbles : 0x0F0F0F0F#32 = joinNibbles lowNibbleMask 8 := by decide
  have countsTop : nibbleCount (c 8) = 0#4 := by
    rw [top]
    decide
  have pairSmall (i : Nat) : (nibbleCount (c i) + nibbleCount (c (i + 1))).toNat ≤ 8 :=
    (nibbleCount_add_toNat _ _).trans_le (Nat.add_le_add (countOnes_le _ 4) (countOnes_le _ 4))
  apply BitVec.eq_of_toNat_eq
  rw [swarPopcount_eq, fives, threes, lowNibbles, nibbleCounts_joinNibbles,
    byteCounts_joinNibbles (fun i => nibbleCount_le (c i)) countsTop, horizontalSum_toNat pairSmall,
    popcount_toNat, countOnes_joinNibbles]
  simp only [nibbleCount_add_toNat, Finset.sum_range_succ, Finset.sum_range_zero, Nat.reduceAdd, Nat.zero_add, Nat.add_assoc]

end Sys2Proof.Machine
end

section
/-! PROOFS. The highest set bit: the scan answers the operand's length in binary digits, from which its logarithm and its
algebra follow (spec/41_msb.md rules R100, R104). -/

namespace Sys2Proof.Machine

/-! ### Binary length of a number -/

theorem toNat_size_eq_log {w : Nat} (x : BitVec w) :
    x.toNat.size = if x = 0#w then 0 else Nat.log 2 x.toNat + 1 := by
  split
  next zero => rw [zero, BitVec.toNat_zero, Nat.size_zero]
  next nonzero =>
    have positive : x.toNat ≠ 0 := fun h => nonzero (BitVec.eq_of_toNat_eq h)
    apply le_antisymm
    · exact Nat.size_le.mpr (Nat.lt_pow_succ_log_self (by decide) x.toNat)
    · exact Nat.lt_size.mpr (Nat.pow_log_le_self 2 positive)

/-- An OR stays below a power of two exactly when both of its sides do. -/
theorem size_or (x y : Nat) : (x ||| y).size = max x.size y.size := by
  refine eq_of_forall_ge_iff fun n => ?_
  rw [max_le_iff, Nat.size_le, Nat.size_le, Nat.size_le]
  exact ⟨fun h => ⟨Nat.left_le_or.trans_lt h, Nat.right_le_or.trans_lt h⟩, fun ⟨hx, hy⟩ => Nat.or_lt_two_pow hx hy⟩

/-! ### The scan as a binary length -/

/-- The scan of the `n` lowest bits measures the number they write (rule R100). -/
theorem highestOne_eq_size {w : Nat} (v : BitVec w) (n : Nat) : highestOne v n = (v.toNat % 2 ^ n).size := by
  induction n with
  | zero => simp [highestOne, Nat.mod_one]
  | succ n ih =>
    have low : v.toNat % 2 ^ n < 2 ^ n := Nat.mod_lt _ (Nat.two_pow_pos n)
    rw [highestOne, bit_eq_ofBool, Nat.mod_pow_succ, ← Nat.toNat_testBit, BitVec.testBit_toNat, ih]
    cases v.getLsbD n with
    | false => simp
    | true =>
      rw [if_pos (by decide), Bool.toNat_true, Nat.mul_one]
      apply le_antisymm
      · exact Nat.lt_size.mpr (Nat.le_add_left _ _)
      · exact Nat.size_le.mpr (by omega)

theorem msb_toNat_eq_size (v : Word) : (msb v).toNat = v.toNat.size := by
  rw [msb_toNat, highestOne_eq_size, Nat.mod_eq_of_lt v.isLt]

/-- `floor(log2(v)) + 1`, and 0 for 0 (rule R100). -/
theorem msb_toNat_eq_log (v : Word) : (msb v).toNat = if v = 0#32 then 0 else Nat.log 2 v.toNat + 1 :=
  (msb_toNat_eq_size v).trans (toNat_size_eq_log v)

/-- Settles O19: the scan is the binary length of the operand, and the result's six bits hold it. -/
theorem msbFindsHighest : Obligations.MsbFindsHighest := by
  intro v s
  refine ⟨fun b => decode_msb b v, (msb v).toNat, msb_toNat_eq_log v, msb_le v, ?_⟩
  rw [exec_msb, BitVec.ofNat_toNat, BitVec.ofNat_toNat, BitVec.setWidth_eq]
  rfl

/-! ### Algebra -/

theorem msb_eq_zero_iff (v : Word) : msb v = 0#6 ↔ v = 0#32 := by
  rw [← BitVec.toNat_inj, ← BitVec.toNat_inj, msb_toNat_eq_size]
  exact Nat.size_eq_zero

theorem msb_oneHot {k : Nat} (h : k < 32) : (msb (1#32 <<< k)).toNat = k + 1 := by
  rw [msb_toNat_eq_size, ← BitVec.twoPow_eq, BitVec.toNat_twoPow_of_lt h, Nat.size_pow]

theorem msb_or (a b : Word) : (msb (a ||| b)).toNat = max (msb a).toNat (msb b).toNat := by
  simp only [msb_toNat_eq_size, BitVec.toNat_or, size_or]

theorem msb_mono {a b : Word} (h : a.toNat ≤ b.toNat) : (msb a).toNat ≤ (msb b).toNat := by
  rw [msb_toNat_eq_size, msb_toNat_eq_size]
  exact Nat.size_le_size h

/-- A narrow operand has the same highest bit in the wide word (rule R104). -/
theorem msb_zext32 {w : Nat} (h : w ≤ 32) (x : BitVec w) :
    (msb (zext32 x)).toNat = if x = 0#w then 0 else Nat.log 2 x.toNat + 1 := by
  rw [msb_toNat_eq_size, zext32_toNat h, toNat_size_eq_log]

/-- Settles O20: each fact is one of the operand's binary length. -/
theorem msbAlgebra : Obligations.MsbAlgebra :=
  ⟨msb_eq_zero_iff, fun _ => msb_oneHot, msb_or, fun _ _ => msb_mono, fun _ x h => msb_zext32 h x⟩

end Sys2Proof.Machine
end

section
/-! PROOFS. The encoder's parities, the bits that it ignores, and its table of basis codes
(spec/42_encoder.md rules R110 to R116). -/

namespace Sys2Proof.Machine

/-! ### The parities in payload bits -/

/-- The payload is the data word's nine low bits (rule R76). -/
theorem bit_payload (d : DataWord) {i : Nat} (h : i < 9) : bit (payload d) i = BitVec.ofBool (d.getLsbD i) := by
  simp [bit_eq_ofBool, payload, h]

/-- The parity summed from the last bit: a matrix row or column starts at its highest payload bit (rule R61). -/
theorem parity3_ofBool (b0 b1 b2 : Bool) :
    parity3 (BitVec.ofBool b0) (BitVec.ofBool b1) (BitVec.ofBool b2) = BitVec.ofBool ((b2 ^^ b1) ^^ b0) := by
  revert b0 b1 b2
  decide

/-- Row `2 - k` is the payload bits `3k` to `3k + 2` (rules R61, R111). -/
theorem rowParity_payload (d : DataWord) {k : Nat} (h : k < 3) :
    rowParity (payload d) (2 - k)
      = BitVec.ofBool ((d.getLsbD (3 * k) ^^ d.getLsbD (3 * k + 1)) ^^ d.getLsbD (3 * k + 2)) := by
  have rowCell (col : Nat) : cell (2 - k) col = 3 * k + (2 - col) := by
    rw [cell]
    omega
  simp only [rowParity, matrixBit, rowCell]
  rw [bit_payload d (by omega), bit_payload d (by omega), bit_payload d (by omega), parity3_ofBool]
  rfl

/-- Column `2 - k` is the payload bits `k`, `k + 3` and `k + 6` (rules R61, R112). -/
theorem columnParity_payload (d : DataWord) {k : Nat} (h : k < 3) :
    columnParity (payload d) (2 - k)
      = BitVec.ofBool ((d.getLsbD k ^^ d.getLsbD (k + 3)) ^^ d.getLsbD (k + 6)) := by
  have columnCell (row : Nat) : cell row (2 - k) = k + 3 * (2 - row) := by
    rw [cell]
    omega
  simp only [columnParity, matrixBit, columnCell]
  rw [bit_payload d (by omega), bit_payload d (by omega), bit_payload d (by omega), parity3_ofBool]
  rfl

/-! ### The code's layout -/

theorem bit_append_zero {w : Nat} (x : BitVec w) (b : Bit) : bit (x ++ b) 0 = b :=
  BitVec.extractLsb'_append_eq_right

theorem bit_append_succ {w : Nat} (x : BitVec w) (b : Bit) (i : Nat) : bit (x ++ b) (i + 1) = bit x i :=
  BitVec.extractLsb'_append_eq_of_le (Nat.le_add_left 1 i)

/-- Bit `3 + k` of the code is a row's parity (rules R63, R111). -/
theorem bit_enc_row (d : DataWord) {k : Nat} (h : k < 3) : bit (enc d) (3 + k) = rowParity (payload d) (2 - k) := by
  obtain rfl | rfl | rfl : k = 0 ∨ k = 1 ∨ k = 2 := by omega
  all_goals
    repeat refine (bit_append_succ _ _ _).trans ?_
    exact bit_append_zero _ _

/-- Bit `k` of the code is a column's parity (rules R63, R112). -/
theorem bit_enc_column (d : DataWord) {k : Nat} (h : k < 3) : bit (enc d) k = columnParity (payload d) (2 - k) := by
  obtain rfl | rfl | rfl : k = 0 ∨ k = 1 ∨ k = 2 := by omega
  all_goals
    repeat refine (bit_append_succ _ _ _).trans ?_
    exact bit_append_zero _ _

theorem enc_getLsbD_row (d : DataWord) {k : Nat} (h : k < 3) :
    (enc d).getLsbD (3 + k) = ((d.getLsbD (3 * k) ^^ d.getLsbD (3 * k + 1)) ^^ d.getLsbD (3 * k + 2)) := by
  have parity := (bit_enc_row d h).trans (rowParity_payload d h)
  rwa [bit_eq_ofBool, BitVec.ofBool_eq_iff_eq] at parity

theorem enc_getLsbD_column (d : DataWord) {k : Nat} (h : k < 3) :
    (enc d).getLsbD k = ((d.getLsbD k ^^ d.getLsbD (k + 3)) ^^ d.getLsbD (k + 6)) := by
  have parity := (bit_enc_column d h).trans (columnParity_payload d h)
  rwa [bit_eq_ofBool, BitVec.ofBool_eq_iff_eq] at parity

/-- The low half of `a`, below ignored bits, is ENC's operand (rule R71). -/
theorem dataOperand_append (high : BitVec 16) (d : DataWord) : dataOperand (high ++ d) = d :=
  BitVec.extractLsb'_append_eq_right

/-- Settles O21: the fields' bits are the rows' and columns' parities, and bits 6 and 7 are known of every code. -/
theorem encComputesParities : Obligations.EncComputesParities := by
  intro d s
  obtain ⟨rows, -, bit7⟩ := enc_parities d
  refine ⟨fun b high => ?_, enc d, exec_enc d s, fun _ => enc_getLsbD_row d, fun _ => enc_getLsbD_column d, ?_, bit7⟩
  · exact (decode_enc b _).trans (congrArg Instr.enc (dataOperand_append high d))
  · rw [rows, Bool.xor_assoc, Bool.xor_comm, Bool.xor_comm ((enc d).getLsbD 4)]

/-! ### The bits that do not count -/

theorem enc_and_payloadMask (d : DataWord) : enc (d &&& 0x01FF#16) = enc d := by
  apply enc_congr_payload
  calc payload (d &&& 0x01FF#16)
      = payload d &&& BitVec.allOnes 9 := BitVec.extractLsb'_and
    _ = payload d := BitVec.and_allOnes

/-- Settles O23: the mask keeps the payload, and bit 7 is 0 in every code. -/
theorem encIgnoresHighBits : Obligations.EncIgnoresHighBits := by
  intro d
  obtain ⟨-, -, bit7⟩ := enc_parities d
  refine ⟨(enc_and_payloadMask d).symm, ?_⟩
  calc enc d &&& BitVec.twoPow 8 7
      = if (enc d).getLsbD 7 then BitVec.twoPow 8 7 else 0#8 := BitVec.and_twoPow _ _
    _ = 0#8 := if_neg (ne_true_of_eq_false bit7)

/-! ### The basis table -/

theorem enc_zero : enc 0#16 = 0#8 := by decide

/-- One more low bit of a word is one more basis word in its XOR. -/
theorem setWidth_setWidth_succ_eq_xor (d : DataWord) (n : Nat) :
    (d.setWidth (n + 1)).setWidth 16
      = (d.setWidth n).setWidth 16 ^^^ if d.getLsbD n = true then 1#16 <<< n else 0#16 := by
  apply BitVec.eq_of_getLsbD_eq
  intro i hi
  obtain below | rfl | above := lt_trichotomy i n
  · cases d.getLsbD n <;> simp [hi, below, show i < n + 1 by omega]
  · cases hbit : d[i] <;> simp [hi, hbit]
  · have distinct : i - n ≠ 0 := by omega
    cases d.getLsbD n <;> simp [hi, distinct, show ¬ i < n by omega, show ¬ i < n + 1 by omega]

/-- By linearity, the code of a word's `n` low bits is the XOR of the basis codes of those that are set (rule R116). -/
theorem enc_setWidth_eq_foldl (d : DataWord) (n : Nat) :
    enc ((d.setWidth n).setWidth 16)
      = (List.range n).foldl (fun x p => if d.getLsbD p = true then x ^^^ enc (1#16 <<< p) else x) 0#8 := by
  induction n with
  | zero =>
    rw [BitVec.of_length_zero (x := d.setWidth 0)]
    exact enc_zero
  | succ n ih =>
    rw [setWidth_setWidth_succ_eq_xor, enc_xor, ih, List.range_succ, List.foldl_append]
    cases hbit : d.getLsbD n with
    | false => simp [hbit, enc_zero]
    | true => simp [hbit]

theorem enc_setWidth_payload (d : DataWord) : enc ((d.setWidth 9).setWidth 16) = enc d := by
  apply enc_congr_payload
  ext i hi
  simp [payload, hi, show i < 16 by omega]

/-- Settles O24: the encoder is linear, and a payload is the XOR of the basis words of its set bits. -/
theorem encLinear : Obligations.EncLinear := by
  refine ⟨enc_xor, enc_zero, by decide, fun d => ?_⟩
  rw [← enc_setWidth_eq_foldl, enc_setWidth_payload]

end Sys2Proof.Machine
end

section
/-! PROOFS. The decoder, arm by arm: the fields of the syndrome, the class of each arm, and the state that DEC leaves
(spec/43_decoder.md rules R126 to R141). -/

namespace Sys2Proof.Machine

open Sys2Proof.Safety

/-! ### From the class to the answered state -/

theorem exec_dec_eq_decSucceeded {d : DataWord} {c : CodeWord} {v : DataWord} (h : correct d c = some v) (s : State) :
    exec (.dec d c) s = .next (decSucceeded d c v s) :=
  exec_dec_of_some h s

theorem exec_dec_eq_decFailed {d : DataWord} {c : CodeWord} (h : correct d c = none) (s : State) :
    exec (.dec d c) s = .next (decFailed d c (failData d c s) s) :=
  exec_dec_of_none h s

theorem correct_of_noError {d : DataWord} {c : CodeWord} (h : decClass d c = .noError) : correct d c = some d := by
  rw [correct, h]

theorem correct_of_codeRowOk {d : DataWord} {c : CodeWord} (h : decClass d c = .codeRowOk) : correct d c = some d := by
  rw [correct, h]

theorem correct_of_corrected {d : DataWord} {c : CodeWord} (h : decClass d c = .corrected) :
    correct d c = some (repaired d c) := by
  rw [correct, h]

theorem correct_of_uncorrectable {d : DataWord} {c : CodeWord} (h : decClass d c = .uncorrectable) :
    correct d c = none := by
  rw [correct, h]

/-- Settles O32: the class decides, and the model draws the value for the request that the state holds. -/
theorem decFailureValueOpen : Obligations.DecFailureValueOpen :=
  fun _ _ s h => exec_dec_eq_decFailed (correct_of_uncorrectable h) s

/-- A failing DEC leaves the failed state for some value, of which nothing is claimed (rule R141). -/
theorem exists_exec_dec_eq_decFailed {d : DataWord} {c : CodeWord} (h : decClass d c = .uncorrectable) (s : State) :
    ∃ v, exec (.dec d c) s = .next (decFailed d c v s) :=
  ⟨_, exec_dec_eq_decFailed (correct_of_uncorrectable h) s⟩

/-! ### The fields of the syndrome -/

theorem fieldCount_eq : ∀ x : Field3, fieldCount x = (x.getLsbD 0).toNat + (x.getLsbD 1).toNat + (x.getLsbD 2).toNat := by
  decide

theorem fieldCount_eq_zero_iff : ∀ x : Field3, fieldCount x = 0 ↔ x = 0#3 := by
  decide

theorem fieldCount_eq_one_iff : ∀ x : Field3, fieldCount x = 1 ↔ ∃ j < 3, x = 1#3 <<< j := by
  decide

theorem colSyn_getLsbD (d : DataWord) (c : CodeWord) {j : Nat} (hj : j < 3) :
    (colSyn d c).getLsbD j = ((enc d).getLsbD j ^^ c.getLsbD j) := by
  rw [← syndrome_getLsbD d c j (by omega), colSyn, columnField, BitVec.getLsbD_extractLsb', Nat.zero_add]
  simp [hj]

theorem rowSyn_getLsbD (d : DataWord) (c : CodeWord) {j : Nat} (hj : j < 3) :
    (rowSyn d c).getLsbD j = ((enc d).getLsbD (3 + j) ^^ c.getLsbD (3 + j)) := by
  rw [← syndrome_getLsbD d c (3 + j) (by omega), rowSyn, rowField, BitVec.getLsbD_extractLsb']
  simp [hj]

/-- The mismatches that `total` counts: code bits 0 to 5 (rule R127). -/
def mismatches (d : DataWord) (c : CodeWord) : Finset (Fin 6) :=
  Finset.univ.filter fun j => ((enc d).getLsbD j ^^ c.getLsbD j) = true

theorem mem_mismatches {d : DataWord} {c : CodeWord} {j : Fin 6} :
    j ∈ mismatches d c ↔ (enc d).getLsbD j ≠ c.getLsbD j := by
  simp [mismatches]

theorem total_eq_card (d : DataWord) (c : CodeWord) : total d c = (mismatches d c).card := by
  have asSum : (mismatches d c).card = ∑ j : Fin 6, ((enc d).getLsbD j ^^ c.getLsbD j).toNat := by
    rw [mismatches, Finset.card_filter]
    exact Finset.sum_congr rfl fun j _ => by cases (enc d).getLsbD j ^^ c.getLsbD j <;> rfl
  rw [asSum, total, fieldCount_eq, fieldCount_eq]
  simp only [colSyn_getLsbD, rowSyn_getLsbD, Nat.reduceLT, Fin.sum_univ_six, ← Nat.add_assoc]
  rfl

/-- Settles O26: each bit is read through its field, and the two counts together sum the six bits. -/
theorem syndromeFields : Obligations.SyndromeFields := by
  intro d c
  refine ⟨syndrome_getLsbD d c, fun j hj => ⟨colSyn_getLsbD d c hj, rowSyn_getLsbD d c hj⟩, total_eq_card d c, ?_⟩
  rw [total_eq_card]
  exact (Finset.card_le_univ _).trans_eq (Fintype.card_fin 6)

/-- Settles O27: the counts' parities are the parities of the bits. -/
theorem selfConsistentChecks : Obligations.SelfConsistentChecks := by
  intro c
  rw [selfConsistent_eq, Bool.and_eq_true, beq_iff_eq, beq_iff_eq]

theorem columnAgreesWithOverall_iff (c : CodeWord) : columnAgreesWithOverall c = true ↔
    c.getLsbD 6 = ((c.getLsbD 2 ^^ c.getLsbD 1) ^^ c.getLsbD 0) := by
  rw [columnAgreesWithOverall_eq, beq_iff_eq]

/-! ### The class of each arm -/

theorem decClass_eq_noError_of_total {d : DataWord} {c : CodeWord} (h : total d c = 0) : decClass d c = .noError :=
  if_pos h

theorem columnField_setWidth : ∀ x : Syndrome, columnField (x.setWidth 8) = columnField x := by
  decide

theorem rowField_setWidth : ∀ x : Syndrome, rowField (x.setWidth 8) = rowField x := by
  decide

/-- The self-check compares the parities of the two fields, in the syndrome as in the code, so an odd number of
mismatches fails it (rule R147). -/
theorem two_dvd_total_of_selfConsistent {d : DataWord} {c : CodeWord} (h : selfConsistent c = true) : 2 ∣ total d c := by
  rw [(checks_of_syndrome d c).1, selfConsistent, Bool.and_eq_true, beq_iff_eq, columnField_setWidth, rowField_setWidth]
    at h
  have sameParity : fieldCount (colSyn d c) % 2 = fieldCount (rowSyn d c) % 2 := h.1
  rw [total]
  omega

theorem selfConsistent_of_total_eq_one {d : DataWord} {c : CodeWord} (h : total d c = 1) : selfConsistent c = false := by
  by_contra consistent
  have := two_dvd_total_of_selfConsistent (d := d) (Bool.eq_true_of_not_eq_false consistent)
  omega

/-- Arm 2 never reaches its success branch (rules R133, R147). -/
theorem decClass_of_lone_column {d : DataWord} {c : CodeWord} (one : total d c = 1) (column : colSyn d c ≠ 0#3) :
    decClass d c = .uncorrectable := by
  simp [decClass, one, column, selfConsistent_of_total_eq_one one]

/-- Arm 3 (rule R134). -/
theorem decClass_of_lone_row {d : DataWord} {c : CodeWord} (one : total d c = 1) (row : colSyn d c = 0#3) :
    decClass d c = if columnAgreesWithOverall c = true then .codeRowOk else .uncorrectable := by
  simp [decClass, one, row]

/-- Arms 4 and 5, whose condition on the two counts gives `total = 2` (rules R135, R138). -/
theorem decClass_of_two_le_total {d : DataWord} {c : CodeWord} (two : 2 ≤ total d c) :
    decClass d c = if fieldCount (colSyn d c) = 1 ∧ fieldCount (rowSyn d c) = 1 ∧ selfConsistent c = true
      then .corrected else .uncorrectable := by
  have notZero : total d c ≠ 0 := by omega
  have notOne : total d c ≠ 1 := by omega
  have counts : (total d c = 2 ∧ fieldCount (colSyn d c) = 1 ∧ fieldCount (rowSyn d c) = 1 ∧ selfConsistent c = true)
      ↔ fieldCount (colSyn d c) = 1 ∧ fieldCount (rowSyn d c) = 1 ∧ selfConsistent c = true := by
    refine and_iff_right_of_imp fun ⟨column, row, _⟩ => ?_
    rw [total, column, row]
  simp only [decClass, notZero, notOne, false_and, if_false, counts]

/-- Every pair falls in one of these cases (rule R139). -/
theorem total_cases (d : DataWord) (c : CodeWord) :
    total d c = 0 ∨ (total d c = 1 ∧ colSyn d c ≠ 0#3) ∨ (total d c = 1 ∧ colSyn d c = 0#3) ∨ 2 ≤ total d c := by
  have := em (colSyn d c = 0#3)
  have : total d c = 0 ∨ total d c = 1 ∨ 2 ≤ total d c := by omega
  tauto

theorem decClass_ne_codeColOk (d : DataWord) (c : CodeWord) : decClass d c ≠ .codeColOk := by
  obtain zero | ⟨one, column⟩ | ⟨one, row⟩ | two := total_cases d c
  · simp [decClass_eq_noError_of_total zero]
  · simp [decClass_of_lone_column one column]
  · rw [decClass_of_lone_row one row]
    split <;> simp
  · rw [decClass_of_two_le_total two]
    split <;> simp

/-! ### Arm 4's location -/

theorem fieldMsb_oneHot : ∀ j < 3, fieldMsb (1#3 <<< j) = j + 1 := by
  decide

/-- The faulty row's and column's cell is payload bit `3j + k` (rules R136, R137). -/
theorem cell_faulty {d : DataWord} {c : CodeWord} {j k : Nat} (hj : j < 3) (hk : k < 3)
    (row : rowSyn d c = 1#3 <<< j) (column : colSyn d c = 1#3 <<< k) :
    cell (faultyRow d c) (faultyColumn d c) = 3 * j + k := by
  rw [cell, faultyRow, faultyColumn, row, column, fieldMsb_oneHot j hj, fieldMsb_oneHot k hk]
  omega

theorem decClass_of_one_and_one {d : DataWord} {c : CodeWord} (column : fieldCount (colSyn d c) = 1)
    (row : fieldCount (rowSyn d c) = 1) (consistent : selfConsistent c = true) : decClass d c = .corrected := by
  have two : total d c = 2 := by rw [total, column, row]
  rw [decClass_of_two_le_total two.ge, if_pos ⟨column, row, consistent⟩]

/-! ### The arms -/

/-- Settles O28: equal low six bits leave nothing to count. -/
theorem decNoMismatch : Obligations.DecNoMismatch := by
  intro d c s sameBits
  have zero : total d c = 0 := by
    rw [total_eq_card, Finset.card_eq_zero, Finset.eq_empty_iff_forall_notMem]
    exact fun j hj => mem_mismatches.mp hj (sameBits j j.isLt).symm
  exact exec_dec_eq_decSucceeded (correct_of_noError (decClass_eq_noError_of_total zero)) s

/-- Settles O29: arm 3's check decides between its two branches. -/
theorem decLoneRowMismatch : Obligations.DecLoneRowMismatch := by
  intro d c s one row
  have arm := decClass_of_lone_row one row
  have check := columnAgreesWithOverall_iff c
  refine ⟨fun agrees => ?_, fun differs => ?_⟩
  · exact exec_dec_eq_decSucceeded (correct_of_codeRowOk (arm.trans (if_pos (check.mpr agrees)))) s
  · exact exists_exec_dec_eq_decFailed (arm.trans (if_neg (mt check.mp differs))) s

/-- Settles O30: one-hot fields meet arm 4, and their highest bits locate the cell. -/
theorem decRepairsCell : Obligations.DecRepairsCell := by
  intro d c s j k hj hk row column consistent
  have arm := decClass_of_one_and_one ((fieldCount_eq_one_iff _).mpr ⟨k, hk, column⟩)
    ((fieldCount_eq_one_iff _).mpr ⟨j, hj, row⟩) consistent
  have answered := exec_dec_eq_decSucceeded (correct_of_corrected arm) s
  rwa [repaired, cellMask, cell_faulty hj hk row column] at answered

/-- Settles O31: with arm 4's condition excluded, arm 5 is left. -/
theorem decOtherwiseUncorrectable : Obligations.DecOtherwiseUncorrectable := by
  intro d c s two otherwise
  exact exists_exec_dec_eq_decFailed ((decClass_of_two_le_total two).trans (if_neg otherwise)) s

/-- Settles O35: a lone mismatch makes the two fields' parities differ. -/
theorem armTwoNeverSucceeds : Obligations.ArmTwoNeverSucceeds :=
  ⟨fun _ _ one => selfConsistent_of_total_eq_one one, decClass_ne_codeColOk,
    fun _ _ s one column => exists_exec_dec_eq_decFailed (decClass_of_lone_column one column) s⟩

end Sys2Proof.Machine
end

section
/-! PROOFS. What follows of the decoder: its verdict on each of the 128 syndromes, what a flipped bit does to the syndrome, and
from both what DEC makes of every received pair (spec/43_decoder.md rules R140 to R155). -/

namespace Sys2Proof.Machine

open Sys2Proof.Safety

/-! ### The syndrome under XOR -/

theorem lowSeven_xor (x y : CodeWord) : lowSeven (x ^^^ y) = lowSeven x ^^^ lowSeven y :=
  BitVec.extractLsb'_xor

theorem syndrome_xor_data (d m : DataWord) (c : CodeWord) :
    syndrome (d ^^^ m) c = syndrome d c ^^^ lowSeven (enc m) := by
  simp only [syndrome, enc_xor, lowSeven_xor]
  ac_rfl

theorem syndrome_xor_code (d : DataWord) (c x : CodeWord) : syndrome d (c ^^^ x) = syndrome d c ^^^ lowSeven x := by
  simp only [syndrome, lowSeven_xor]
  ac_rfl

theorem syndrome_enc (d : DataWord) : syndrome d (enc d) = 0#7 := by
  rw [syndrome, BitVec.xor_self]
  rfl

/-- The code of payload bit `p` alone: the syndrome that a flip of this bit leaves (rules R116, R146). -/
def basisSyndrome (p : Nat) : Syndrome := lowSeven (enc (1#16 <<< p))

theorem syndrome_payloadFlip (d : DataWord) (p : Nat) : syndrome (d ^^^ (1#16 <<< p)) (enc d) = basisSyndrome p := by
  rw [syndrome_xor_data, syndrome_enc, BitVec.zero_xor, basisSyndrome]

theorem lowSeven_oneHot : ∀ j < 7, lowSeven (1#8 <<< j) = 1#7 <<< j := by
  decide

theorem syndrome_codeFlip (d : DataWord) {j : Nat} (hj : j < 7) : syndrome d (enc d ^^^ (1#8 <<< j)) = 1#7 <<< j := by
  rw [syndrome_xor_code, syndrome_enc, BitVec.zero_xor, lowSeven_oneHot j hj]

/-! ### The verdict on each syndrome -/

theorem decClass_congr {d d' : DataWord} {c c' : CodeWord} (h : syndrome d c = syndrome d' c') :
    decClass d c = decClass d' c' := by
  rw [decClass_eq_of_syndrome, h, ← decClass_eq_of_syndrome]

theorem colSyn_congr {d d' : DataWord} {c c' : CodeWord} (h : syndrome d c = syndrome d' c') : colSyn d c = colSyn d' c' :=
  congrArg columnField h

theorem rowSyn_congr {d d' : DataWord} {c c' : CodeWord} (h : syndrome d c = syndrome d' c') : rowSyn d c = rowSyn d' c' :=
  congrArg rowField h

theorem total_congr {d d' : DataWord} {c c' : CodeWord} (h : syndrome d c = syndrome d' c') : total d c = total d' c' := by
  rw [total, total, colSyn_congr h, rowSyn_congr h]

theorem decClass_eq_noError_iff {d : DataWord} {c : CodeWord} :
    decClass d c = .noError ↔ syndrome d c = 0#7 ∨ syndrome d c = 1#7 <<< 6 := by
  have table : ∀ x : Syndrome, decClass 0#16 (x.setWidth 8) = .noError ↔ x = 0#7 ∨ x = 1#7 <<< 6 := by decide
  rw [decClass_eq_of_syndrome]
  exact table _

theorem decClass_eq_codeRowOk_iff {d : DataWord} {c : CodeWord} :
    decClass d c = .codeRowOk ↔ ∃ j < 6, 3 ≤ j ∧ syndrome d c = 1#7 <<< j := by
  have table : ∀ x : Syndrome, decClass 0#16 (x.setWidth 8) = .codeRowOk ↔ ∃ j < 6, 3 ≤ j ∧ x = 1#7 <<< j := by decide
  rw [decClass_eq_of_syndrome]
  exact table _

theorem decClass_eq_corrected_iff {d : DataWord} {c : CodeWord} :
    decClass d c = .corrected ↔ ∃ p < 9, syndrome d c = basisSyndrome p := by
  have table : ∀ x : Syndrome, decClass 0#16 (x.setWidth 8) = .corrected ↔ ∃ p < 9, x = basisSyndrome p := by decide
  rw [decClass_eq_of_syndrome]
  exact table _

/-! ### The bit to flip -/

/-- The basis code of payload bit `p` marks the row and the column of the bit's cell (rules R61, R137). -/
theorem basisSyndrome_fields : ∀ p < 9,
    rowField (basisSyndrome p) = 1#3 <<< (p / 3) ∧ columnField (basisSyndrome p) = 1#3 <<< (p % 3) := by
  decide

theorem cell_of_basisSyndrome {d : DataWord} {c : CodeWord} {p : Nat} (hp : p < 9) (h : syndrome d c = basisSyndrome p) :
    cell (faultyRow d c) (faultyColumn d c) = p := by
  obtain ⟨row, column⟩ := basisSyndrome_fields p hp
  rw [← h] at row column
  rw [cell_faulty (by omega) (by omega) row column, Nat.div_add_mod]

theorem repaired_of_basisSyndrome {d : DataWord} {c : CodeWord} {p : Nat} (hp : p < 9)
    (h : syndrome d c = basisSyndrome p) : repaired d c = d ^^^ (1#16 <<< p) := by
  rw [repaired, cellMask, cell_of_basisSyndrome hp h]

/-- The low six bits of the basis codes tell the payload bits apart (rule R155). -/
theorem basisSyndrome_low_inj : ∀ p < 9, ∀ q < 9,
    (enc (1#16 <<< p)).extractLsb' 0 6 = (basisSyndrome q).extractLsb' 0 6 ↔ p = q := by
  decide

/-- Settles O45: in class CORRECTED the syndrome is one basis code, whose fields are the row and the column of its bit. -/
theorem flipIndexSimplifies : Obligations.FlipIndexSimplifies := by
  intro d c inClass
  obtain ⟨q, hq, h⟩ := decClass_eq_corrected_iff.mp inClass
  obtain ⟨row, column⟩ := basisSyndrome_fields q hq
  rw [← h] at row column
  rw [cell_of_basisSyndrome hq h, h]
  refine ⟨?_, fun p hp => basisSyndrome_low_inj p hp q hq⟩
  rw [rowSyn, colSyn, row, column, fieldMsb_oneHot _ (by omega), fieldMsb_oneHot _ (by omega)]
  omega

/-! ### Flips of one bit -/

theorem exec_dec_enc (d : DataWord) (s : State) : exec (.dec d (enc d)) s = .next (decSucceeded d (enc d) d s) :=
  exec_dec_eq_decSucceeded (correct_of_noError (decClass_eq_noError_iff.mpr (.inl (syndrome_enc d)))) s

/-- Settles O33: the syndrome of a pair as the encoder made it is 0. -/
theorem decRoundTrip : Obligations.DecRoundTrip :=
  fun d s => ⟨decClass_eq_noError_iff.mpr (.inl (syndrome_enc d)), exec_dec_enc d s⟩

/-- Settles O34: the flip leaves its basis code as the syndrome, and the repair flips the same bit back. -/
theorem decCorrectsPayloadFlip : Obligations.DecCorrectsPayloadFlip := by
  intro d p s hp
  have flipped := syndrome_payloadFlip d p
  have inClass := decClass_eq_corrected_iff.mpr ⟨p, hp, flipped⟩
  have answered := exec_dec_eq_decSucceeded (correct_of_corrected inClass) s
  rw [repaired_of_basisSyndrome hp flipped, BitVec.xor_assoc, BitVec.xor_self, BitVec.xor_zero] at answered
  exact ⟨inClass, flipped, answered⟩

/-- Settles O36: syndrome bit 6 stands in neither field. -/
theorem decBitSixBlindSpot : Obligations.DecBitSixBlindSpot := by
  intro d c s bitSix
  have zero : total d c = 0 := by
    rw [total, colSyn, rowSyn, bitSix]
    decide
  have inClass := decClass_eq_noError_of_total zero
  exact ⟨zero, inClass, exec_dec_eq_decSucceeded (correct_of_noError inClass) s⟩

/-- Settles O37: the flip stands alone in the row field of the syndrome. -/
theorem decToleratesRowParityFlip : Obligations.DecToleratesRowParityFlip := by
  intro d j s three_le le_five
  have inClass :=
    decClass_eq_codeRowOk_iff.mpr ⟨j, by omega, three_le, syndrome_codeFlip d (show j < 7 by omega)⟩
  exact ⟨inClass, exec_dec_eq_decSucceeded (correct_of_codeRowOk inClass) s⟩

/-- Settles O38: the flip stands alone in the column field of the syndrome, which is arm 2. -/
theorem decReportsColumnParityFlip : Obligations.DecReportsColumnParityFlip := by
  intro d j s hj
  have fields : ∀ j < 3, columnField (1#7 <<< j) = 1#3 <<< j ∧ rowField (1#7 <<< j) = 0#3 ∧ 1#3 <<< j ≠ 0#3 := by decide
  obtain ⟨column, row, nonzero⟩ := fields j hj
  rw [← syndrome_codeFlip d (show j < 7 by omega)] at column row
  have one : total d (enc d ^^^ (1#8 <<< j)) = 1 := by
    rw [total, colSyn, rowSyn, column, row, (fieldCount_eq_one_iff _).mpr ⟨j, hj, rfl⟩, (fieldCount_eq_zero_iff _).mpr rfl]
  exact ⟨selfConsistent_of_total_eq_one one,
    exists_exec_dec_eq_decFailed (decClass_of_lone_column one (column.trans_ne nonzero)) s⟩

/-! ### Flips of two bits -/

/-- What a flip of protected bit `p` adds to the syndrome (rules R150, R151). -/
def flipSyndrome (p : Nat) : Syndrome := if p < 9 then basisSyndrome p else lowSeven (1#8 <<< (p - 9))

theorem syndrome_flipProtected (p : Nat) (pair : DataWord × CodeWord) :
    syndrome (flipProtected p pair).1 (flipProtected p pair).2 = syndrome pair.1 pair.2 ^^^ flipSyndrome p := by
  rw [flipProtected, flipSyndrome]
  split
  · exact syndrome_xor_data _ _ _
  · exact syndrome_xor_code _ _ _

/-- The 240 ordered pairs of distinct flips (rule R151). -/
theorem decClass_of_two_flips : ∀ p < 16, ∀ q < 16, p ≠ q →
    decClass 0#16 ((flipSyndrome q ^^^ flipSyndrome p).setWidth 8) = .uncorrectable := by
  decide

/-- Settles O39: two flips leave the sum of their two syndromes, whatever the data word is. -/
theorem decDetectsDoubleFlips : Obligations.DecDetectsDoubleFlips := by
  intro d p q s hp hq distinct
  have twoFlips := syndrome_flipProtected p (flipProtected q (d, enc d))
  rw [syndrome_flipProtected q, syndrome_enc, BitVec.zero_xor] at twoFlips
  have fails := decClass_of_two_flips p hp q hq distinct
  rw [← twoFlips, ← decClass_eq_of_syndrome] at fails
  exact ⟨_, _, _, rfl, exec_dec_eq_decFailed (correct_of_uncorrectable fails) s⟩

/-! ### What DEC accepts -/

theorem correct_of_exec_dec {d : DataWord} {c : CodeWord} {s t : State} (answered : exec (.dec d c) s = .next t)
    (ok : t.decOk = 1#1) : correct d c = some t.decCorrected := by
  obtain ⟨k, v, answer, hc⟩ := exec_dec d c s
  obtain rfl := Host.Outcome.next.inj (answer.symm.trans answered)
  exact hc.trans (if_pos ok)

theorem exec_dec_eq_decSucceeded_iff {d : DataWord} {c : CodeWord} {v : DataWord} {s : State} :
    exec (.dec d c) s = .next (decSucceeded d c v s) ↔ correct d c = some v :=
  ⟨fun answered => correct_of_exec_dec answered rfl, fun h => exec_dec_eq_decSucceeded h s⟩

/-- DEC answers the word it received, or that word repaired (rule R140). -/
theorem correct_eq_some_iff {d : DataWord} {c : CodeWord} {v : DataWord} :
    correct d c = some v ↔
      (d = v ∧ (decClass d c = .noError ∨ decClass d c = .codeRowOk)) ∨ (decClass d c = .corrected ∧ repaired d c = v) := by
  rw [correct]
  cases h : decClass d c
  case codeColOk => exact absurd h (decClass_ne_codeColOk d c)
  all_goals simp

/-- The two classes that accept the word as it is, in code bits (rules R148, R149). -/
theorem decClass_accepts_iff {d : DataWord} {c : CodeWord} :
    (decClass d c = .noError ∨ decClass d c = .codeRowOk)
      ↔ syndrome d c = 0#7 ∨ ∃ j, 3 ≤ j ∧ j ≤ 6 ∧ syndrome d c = 1#7 <<< j := by
  rw [decClass_eq_noError_iff, decClass_eq_codeRowOk_iff]
  constructor
  · rintro ((h | h) | ⟨j, lt, le, h⟩)
    · exact .inl h
    · exact .inr ⟨6, by decide, by decide, h⟩
    · exact .inr ⟨j, le, by omega, h⟩
  · rintro (h | ⟨j, le, le_six, h⟩)
    · exact .inl (.inl h)
    · obtain rfl | lt : j = 6 ∨ j < 6 := by omega
      · exact .inl (.inr h)
      · exact .inr ⟨j, lt, le, h⟩

/-- The pairs that are repaired to `v` (rule R152). -/
theorem repaired_eq_iff {d : DataWord} {c : CodeWord} {v : DataWord} :
    (decClass d c = .corrected ∧ repaired d c = v) ↔ ∃ p < 9, d = v ^^^ (1#16 <<< p) ∧ syndrome v c = 0#7 := by
  rw [decClass_eq_corrected_iff]
  constructor
  · rintro ⟨⟨p, hp, h⟩, rfl⟩
    rw [repaired_of_basisSyndrome hp h]
    refine ⟨p, hp, ?_, ?_⟩
    · rw [BitVec.xor_assoc, BitVec.xor_self, BitVec.xor_zero]
    · rw [syndrome_xor_data, h, basisSyndrome, BitVec.xor_self]
  · rintro ⟨p, hp, rfl, h⟩
    have flipped : syndrome (v ^^^ (1#16 <<< p)) c = basisSyndrome p := by
      rw [syndrome_xor_data, h, BitVec.zero_xor, basisSyndrome]
    refine ⟨⟨p, hp, flipped⟩, ?_⟩
    rw [repaired_of_basisSyndrome hp flipped, BitVec.xor_assoc, BitVec.xor_self, BitVec.xor_zero]

/-- Settles O40: the accepting classes and the repaired pairs, each in terms of the answered word. -/
theorem decAcceptsExactlyNearPairs : Obligations.DecAcceptsExactlyNearPairs := by
  intro d c v s
  rw [exec_dec_eq_decSucceeded_iff, correct_eq_some_iff, decClass_accepts_iff, repaired_eq_iff]
  refine or_congr_left (and_congr_right ?_)
  rintro rfl
  rfl

/-- Settles O42: an accepted word is the input, and a repair moves one payload bit and so no bit above it. -/
theorem decSuccessPassesWordThrough : Obligations.DecSuccessPassesWordThrough := by
  intro d c s t answered ok
  obtain ⟨same, accepts⟩ | ⟨inClass, repairs⟩ := correct_eq_some_iff.mp (correct_of_exec_dec answered ok)
  · refine ⟨by rw [← same], fun _ => same.symm, fun inClass => ?_⟩
    simp [inClass] at accepts
  · refine ⟨?_, fun other => absurd inClass other, fun _ => ?_⟩
    · rw [← repairs, repaired, BitVec.extractLsb'_xor, cellMask_high, BitVec.xor_zero]
    · obtain ⟨p, hp, h⟩ := decClass_eq_corrected_iff.mp inClass
      exact ⟨p, hp, repairs.symm.trans (repaired_of_basisSyndrome hp h)⟩

/-! ### The bits that do not count -/

theorem payload_eq_zero_of_masked {h : DataWord} (masked : h &&& 0x01FF#16 = 0#16) : payload h = 0#9 := by
  have kept : payload (h &&& 0x01FF#16) = payload h &&& BitVec.allOnes 9 := BitVec.extractLsb'_and
  rw [masked, BitVec.and_allOnes] at kept
  exact kept.symm

theorem payload_xor_of_masked (d : DataWord) {h : DataWord} (masked : h &&& 0x01FF#16 = 0#16) :
    payload (d ^^^ h) = payload d := by
  rw [payload_xor, payload_eq_zero_of_masked masked, BitVec.xor_zero]

/-- Settles O43: neither flip reaches the syndrome, which alone decides the outcome and the bits to flip. -/
theorem decIgnoresInputBits : Obligations.DecIgnoresInputBits := by
  refine ⟨fun d c => ?_, fun d h c masked => ?_⟩
  · have bitSeven : lowSeven (c ^^^ 0x80#8) = lowSeven c := by
      rw [lowSeven_xor, show lowSeven 0x80#8 = 0#7 by decide, BitVec.xor_zero]
    rw [correct_eq_map, syndrome_congr rfl bitSeven, ← correct_eq_map]
  · rw [correct_eq_map, syndrome_congr (payload_xor_of_masked d masked) rfl, correct_eq_map d c, Option.map_map]
    congr 1
    funext m
    simp only [Function.comp]
    ac_rfl

/-- Settles O44: the bit is outside the payload, so the flipped word has the code of the first one. -/
theorem highDataBitsUnprotected : Obligations.HighDataBitsUnprotected := by
  intro d p s nine_le le_fifteen
  have masks : ∀ p < 16, 9 ≤ p → 1#16 <<< p &&& 0x01FF#16 = 0#16 := by decide
  have samePayload := payload_xor_of_masked d (masks p (by omega) nine_le)
  have sameCode := enc_congr_payload samePayload
  have answered := exec_dec_enc (d ^^^ (1#16 <<< p)) s
  rw [sameCode] at answered
  exact ⟨sameCode, fun c => decClass_congr (syndrome_congr samePayload rfl), answered⟩

/-! ### The census -/

/-- A code received with a data word has the syndrome that its difference from the word's own code has with the zero word. -/
theorem syndrome_eq_syndrome_zero (d : DataWord) (k : Nat) :
    syndrome d (BitVec.ofNat 8 k) = syndrome 0#16 (BitVec.ofNat 8 ((enc d).toNat ^^^ k)) := by
  rw [syndrome, syndrome, enc_zero, BitVec.zero_xor, BitVec.ofNat_xor, BitVec.ofNat_toNat, BitVec.setWidth_eq]

/-- XOR with the word's own code pairs the seven-bit codes, so what the syndrome decides happens for as many codes with every
data word as with the zero word. -/
theorem census_eq_census_zero (P : DecClass → Nat → Field3 → Prop) [∀ verdict n x, Decidable (P verdict n x)]
    (d : DataWord) :
    ((List.range 128).filter fun k =>
        P (decClass d (BitVec.ofNat 8 k)) (total d (BitVec.ofNat 8 k)) (colSyn d (BitVec.ofNat 8 k))).length
      = ((List.range 128).filter fun k =>
        P (decClass 0#16 (BitVec.ofNat 8 k)) (total 0#16 (BitVec.ofNat 8 k)) (colSyn 0#16 (BitVec.ofNat 8 k))).length := by
  have below {k : Nat} (hk : k < 128) : (enc d).toNat ^^^ k < 128 := Nat.xor_lt_two_pow (n := 7) (enc_toNat_lt d) hk
  have paired (k : Nat) := syndrome_eq_syndrome_zero d k
  simp only [decClass_congr (paired _), total_congr (paired _), colSyn_congr (paired _)]
  refine Finset.card_nbij' (s := (Finset.range 128).filter _) (t := (Finset.range 128).filter _)
    ((enc d).toNat ^^^ ·) ((enc d).toNat ^^^ ·) ?_ ?_ ?_ ?_
  · intro k hk
    obtain ⟨hk, holds⟩ := Finset.mem_filter.mp hk
    exact Finset.mem_filter.mpr ⟨Finset.mem_range.mpr (below (Finset.mem_range.mp hk)), holds⟩
  · intro k hk
    obtain ⟨hk, holds⟩ := Finset.mem_filter.mp hk
    refine Finset.mem_filter.mpr ⟨Finset.mem_range.mpr (below (Finset.mem_range.mp hk)), ?_⟩
    simpa only [Nat.xor_xor_cancel_left] using holds
  · exact fun k _ => Nat.xor_xor_cancel_left _ k
  · exact fun k _ => Nat.xor_xor_cancel_left _ k

/-- Settles O41: the census is that of the zero word, which is counted code by code. -/
theorem decClassCensus : Obligations.DecClassCensus := by
  intro d
  refine ⟨?_, ?_, ?_, ?_, ?_, ?_, ?_⟩
  · exact (census_eq_census_zero (fun verdict _ _ => verdict = .noError) d).trans (by decide)
  · exact (census_eq_census_zero (fun verdict _ _ => verdict = .codeColOk) d).trans (by decide)
  · exact (census_eq_census_zero (fun verdict _ _ => verdict = .codeRowOk) d).trans (by decide)
  · exact (census_eq_census_zero (fun verdict _ _ => verdict = .corrected) d).trans (by decide)
  · exact (census_eq_census_zero (fun verdict n x => verdict = .uncorrectable ∧ n = 1 ∧ x ≠ 0#3) d).trans (by decide)
  · exact (census_eq_census_zero (fun verdict n x => verdict = .uncorrectable ∧ n = 1 ∧ x = 0#3) d).trans (by decide)
  · exact (census_eq_census_zero (fun verdict n _ => verdict = .uncorrectable ∧ 2 ≤ n) d).trans (by decide)

end Sys2Proof.Machine
end
